-- ==== Sys2Proof/Word.lean ====
section
/-! DEFINITION. The word types of the block: the byte of a Register Bank cell, the stimulus and
micro-op words, and the binary32 datum of the motion profile. -/

namespace Sys2Proof

/-- One Register Bank cell, one view field, one bank address (R9, R32: 8 bits each). -/
abbrev Byte := BitVec 8

/-- A stimulus word (R91) and the container in which a shorter word is handed to the decoder. -/
abbrev Word32 := BitVec 32

/-- A micro-op word, the contents of `seq` (R95). -/
abbrev Uop16 := BitVec 16

/-- An IEEE 754 binary32 datum (R7 `FP`, R13).  A finite number is its sign and the number made of
bits 30..0 of its bit pattern (exponent field and fraction), which for a finite number is below
0x7F800000, so that every term is a number and every number is a term.  NaN is one datum: no rule of
the spec reads the payload of a NaN (log entry 9). -/
inductive F32 where
  | nan
  | inf (neg : Bool)
  | fin (neg : Bool) (mag : Fin 0x7F800000)
deriving DecidableEq, Repr, Inhabited

/-- The value `v[hi:lo]` of R10: the unsigned field of bits `hi` down to `lo`. -/
abbrev field (w hi lo : Nat) : Nat := w / 2 ^ lo % 2 ^ (hi + 1 - lo)

end Sys2Proof
end

