-- ==== Sys2Proof/Machine/Memory.lean ====
section
/-! DEFINITION. The Register Bank (R32, R60): 256 one-byte cells, each a byte or ⊥ (not written since
RESET).  It is the list of the written cells with addresses strictly rising; a cell that is not listed
is ⊥. -/

namespace Sys2Proof.Machine

/-- The written cells of the Register Bank. -/
abbrev Bank := List Host.Cell

/-- The byte of a cell, or `none` for ⊥ (R32). -/
def Bank.read : Bank → Nat → Option Byte
  | [], _ => none
  | (x, v) :: rest, a => if x = a then some v else Bank.read rest a

/-- `bank[a] <- v` (R12). -/
def Bank.write : Bank → Nat → Byte → Bank
  | [], a, v => [(a, v)]
  | (x, w) :: rest, a, v =>
    if a < x then (a, v) :: (x, w) :: rest
    else if x = a then (a, v) :: rest
    else (x, w) :: Bank.write rest a v

/-- Every address of the list is at least `lo`, below 256, and below the next one. -/
def Bank.wfFrom : Nat → Bank → Bool
  | _, [] => true
  | lo, (x, _) :: rest => decide (lo ≤ x) && decide (x < 256) && Bank.wfFrom (x + 1) rest

/-- The canonical form: addresses strictly rising, all of them below 256. -/
def Bank.wf (b : Bank) : Bool := Bank.wfFrom 0 b

/-- Writes consecutive cells from `a` on. -/
def Bank.writeAll : Bank → Nat → List Byte → Bank
  | b, _, [] => b
  | b, a, v :: vs => Bank.writeAll (Bank.write b a v) (a + 1) vs

end Sys2Proof.Machine
end

