-- ==== Sys2Proof/Syntax.lean ====
section
/-! DEFINITION. The operations of the block, one constructor of `Instr` for each row of
spec/opcode_table.json: the host and tick-timer operations (STIM32), the micro-ops of a tick
(UOP16), the sub-operations of an M_STEP (SUBOP8), and the accesses to the register-map fields
(MREG, SREG). -/

namespace Sys2Proof

/-- The two axes (R7 `NAXES` = 2, R41). -/
inductive Axis where
  | one
  | two
deriving DecidableEq, Repr, Inhabited

/-- A host-port access to a register-map field: a read (`rdm`, `rds` of R103) or a write of one byte
(`wrm`, `wrs`). -/
inductive Access where
  | rd
  | wr (data : Byte)
deriving DecidableEq, Repr, Inhabited

/-- The encoding spaces of R90 and the table's `format` column. -/
inductive Format where
  | stim32
  | uop16
  | subop8
  | mreg
  | sreg
deriving DecidableEq, Repr, Inhabited

/-- One constructor per row of spec/opcode_table.json.  The index of a view byte is the 4-bit IDX
field of R95, whose legal range is a check of `Instr.WF`. -/
inductive Instr where
  -- STIM32: the operations on the ports (R92)
  | nop
  | hostRd (addr : Byte)
  | hostWr (addr data : Byte)
  | tick
  | reset
  | setOc (k : Axis) (level : Bool)
  -- UOP16: the micro-ops of a tick (R96)
  | sysLoad (i : BitVec 4)
  | mLoad (k : Axis) (i : BitVec 4)
  | mStep (k : Axis)
  | mSave (k : Axis) (i : BitVec 4)
  | sysStep
  | sysSave (i : BitVec 4)
  | tickEnd
  -- SUBOP8: the sub-operations of an M_STEP (R97); their operands are locals of that M_STEP
  | p1DirSanitize
  | p2CmdClamp
  | p3ResetError
  | p4ModeSelect
  | p5HandleOnOff
  | p5HandleRamp
  | p5HandleIdle
  | p6Duty
  | p6Actuate
  | p8Status
  | p9Writeback
  | rampInit
  | msReset
  | retarget
  | update
  | checkError
  | faultLatch
  | clearError
  -- MREG: the fourteen fields of the MotorView of axis k (R33, R98)
  | controlMode (k : Axis) (acc : Access)
  | enable (k : Axis) (acc : Access)
  | commandSpeed (k : Axis) (acc : Access)
  | actualSpeed (k : Axis) (acc : Access)
  | direction (k : Axis) (acc : Access)
  | maxSpeed (k : Axis) (acc : Access)
  | minSpeed (k : Axis) (acc : Access)
  | vmax (k : Axis) (acc : Access)
  | amax (k : Axis) (acc : Access)
  | jmax (k : Axis) (acc : Access)
  | maxAcc (k : Axis) (acc : Access)
  | maxDec (k : Axis) (acc : Access)
  | statusWord (k : Axis) (acc : Access)
  | errorCode (k : Axis) (acc : Access)
  -- SREG: the seven fields of the SystemView (R37, R98)
  | deviceId (acc : Access)
  | firmwareVersion (acc : Access)
  | systemStatus (acc : Access)
  | systemError (acc : Access)
  | resetErrorCommand (acc : Access)
  | configBaudrate (acc : Access)
  | configParity (acc : Access)
deriving DecidableEq, Repr, Inhabited

/-- The encoding space an operation belongs to: the table's `format` column (R90). -/
def Instr.format : Instr → Format
  | .nop | .hostRd _ | .hostWr _ _ | .tick | .reset | .setOc _ _ => .stim32
  | .sysLoad _ | .mLoad _ _ | .mStep _ | .mSave _ _ | .sysStep | .sysSave _ | .tickEnd => .uop16
  | .p1DirSanitize | .p2CmdClamp | .p3ResetError | .p4ModeSelect | .p5HandleOnOff
  | .p5HandleRamp | .p5HandleIdle | .p6Duty | .p6Actuate | .p8Status | .p9Writeback
  | .rampInit | .msReset | .retarget | .update | .checkError | .faultLatch | .clearError => .subop8
  | .controlMode _ _ | .enable _ _ | .commandSpeed _ _ | .actualSpeed _ _ | .direction _ _
  | .maxSpeed _ _ | .minSpeed _ _ | .vmax _ _ | .amax _ _ | .jmax _ _ | .maxAcc _ _
  | .maxDec _ _ | .statusWord _ _ | .errorCode _ _ => .mreg
  | .deviceId _ | .firmwareVersion _ | .systemStatus _ | .systemError _
  | .resetErrorCommand _ | .configBaudrate _ | .configParity _ => .sreg

end Sys2Proof
end

