-- ==== Sys2Proof/Config.lean ====
section
/-! DEFINITION. What an implementation fixes: the configuration record `Cfg` of R7 with its default
values, and the free values, which no rule constrains. -/

namespace Sys2Proof

/-- The configuration record of R7, constant between resets.  `NAXES` is fixed at 2 by the type `Axis`
and `FP` is fixed at binary32 with roundTiesToEven by the type `F32` (D10). -/
structure Cfg where
  baseSys : Byte
  baseM1 : Byte
  baseM2 : Byte
  dt : F32
  kv : F32
  ka : F32
  kj : F32
  epsV : F32
  distance1 : F32
  distance2 : F32
  stallTicks : Nat
  retargetDelta : Nat
  deviceId : Byte
  fwVersion : Byte
  defBaud : Byte
  defParity : Byte
  defMaxSpeed : Byte
  defMinSpeed : Byte
  defVmax : Byte
  defAmax : Byte
  defJmax : Byte
  defMaxAcc : Byte
  defMaxDec : Byte
deriving DecidableEq, Repr

/-- The default column of R7. -/
def Cfg.default : Cfg where
  baseSys := 0x00
  baseM1 := 0x10
  baseM2 := 0x20
  dt := .fin false 0x3A83126F
  kv := .fin false 0x3F800000
  ka := .fin false 0x3F800000
  kj := .fin false 0x3F800000
  epsV := .fin false 0
  distance1 := .inf false
  distance2 := .inf false
  stallTicks := 10000
  retargetDelta := 1
  deviceId := 0x01
  fwVersion := 0x01
  defBaud := 0x00
  defParity := 0x00
  defMaxSpeed := 100
  defMinSpeed := 0
  defVmax := 100
  defAmax := 50
  defJmax := 200
  defMaxAcc := 50
  defMaxDec := 50

/-- Free value: the byte that the `n`-th read of a cell holding ⊥ returns (R121 `draw_byte()`, I1: any
value, chosen freshly per read). -/
opaque Config.freeByte : Nat → Byte

/-- Free value: `floor(x + h/2)` where R13 gives the floor no meaning, that is, where `x` is not a finite
number ≥ 0.  No state that a well-formed configuration reaches asks for it (R163; log entry 10). -/
opaque Config.floorOpen : F32 → Nat → Nat

end Sys2Proof
end

