-- ==== Sys2Proof/Machine/Float.lean ====
section
/-! DEFINITION. binary32 arithmetic (R13): every operation is computed exactly on numbers and rounded once,
roundTiesToEven.  A finite datum is a multiple of 2^-149, the least positive binary32 number, so an
exact value is kept as a count of that unit. -/

namespace Sys2Proof

namespace F32

/-- +0.0 -/
def zero : F32 := .fin false 0

/-- The datum of a 32-bit pattern (IEEE 754 binary32: sign, 8-bit exponent, 23-bit fraction). -/
def ofBits (b : Word32) : F32 :=
  let neg := decide (2 ^ 31 ≤ b.toNat)
  let mag := b.toNat % 2 ^ 31
  if h : mag < 0x7F800000 then .fin neg ⟨mag, h⟩
  else if mag = 0x7F800000 then .inf neg
  else .nan

/-- The magnitude of a finite number in units of 2^-149, from bits 30..0 of its pattern. -/
def units (mag : Nat) : Nat :=
  let e := mag / 2 ^ 23
  let f := mag % 2 ^ 23
  if e = 0 then f else (2 ^ 23 + f) * 2 ^ (e - 1)

/-- Bits 30..0 of `num / den` units rounded to nearest, ties to even: `k` is the exponent of the unit in
the last place, `m` the significand below the exact value.  A result of 0x7F800000 or more is an
overflow. -/
def roundMag (num den : Nat) : Nat :=
  let q := num / den
  let k := if q < 2 ^ 24 then 0 else Nat.log2 q - 23
  let d := den * 2 ^ k
  let m := num / d
  let r := num % d
  k * 2 ^ 23 + (if d < 2 * r ∨ (d = 2 * r ∧ m % 2 = 1) then m + 1 else m)

/-- The binary32 number nearest to ± `num / den` units, +∞ or −∞ on overflow. -/
def ofRatio (neg : Bool) (num den : Nat) : F32 :=
  let b := roundMag num den
  if h : b < 0x7F800000 then .fin neg ⟨b, h⟩ else .inf neg

/-- The exact value of a finite number, in units of 2^-149. -/
def value (neg : Bool) (mag : Nat) : Int :=
  if neg then -(units mag : Int) else (units mag : Int)

/-- An exact sum rounded once; an exact zero is −0 only when both terms are negative. -/
def ofSum (bothNeg : Bool) (x : Int) : F32 :=
  if x = 0 then .fin bothNeg 0 else ofRatio (decide (x < 0)) x.natAbs 1

/-- `−x`: flips the sign, exact (R13). -/
def neg : F32 → F32
  | .nan => .nan
  | .inf s => .inf !s
  | .fin s m => .fin (!s) m

/-- `|x|`: clears the sign, exact (R13). -/
def abs : F32 → F32
  | .nan => .nan
  | .inf _ => .inf false
  | .fin _ m => .fin false m

/-- `x + y` -/
def add : F32 → F32 → F32
  | .nan, _ => .nan
  | .inf _, .nan => .nan
  | .inf s, .inf t => if s = t then .inf s else .nan
  | .inf s, .fin _ _ => .inf s
  | .fin _ _, .nan => .nan
  | .fin _ _, .inf t => .inf t
  | .fin s a, .fin t b => ofSum (s && t) (value s a + value t b)

/-- `x − y` -/
def sub (x y : F32) : F32 := add x (neg y)

/-- `x × y` -/
def mul : F32 → F32 → F32
  | .nan, _ => .nan
  | .inf _, .nan => .nan
  | .inf s, .inf t => .inf (s != t)
  | .inf s, .fin t b => if b = 0 then .nan else .inf (s != t)
  | .fin _ _, .nan => .nan
  | .fin s a, .inf t => if a = 0 then .nan else .inf (s != t)
  | .fin s a, .fin t b => ofRatio (s != t) (units a * units b) (2 ^ 149)

/-- `x ÷ y` -/
def div : F32 → F32 → F32
  | .nan, _ => .nan
  | .inf _, .nan => .nan
  | .inf _, .inf _ => .nan
  | .inf s, .fin t _ => .inf (s != t)
  | .fin _ _, .nan => .nan
  | .fin s _, .inf t => .fin (s != t) 0
  | .fin s a, .fin t b =>
    if b = 0 then (if a = 0 then .nan else .inf (s != t))
    else ofRatio (s != t) (units a * 2 ^ 149) (units b)

/-- `fp(n)`: the integer converted with roundTiesToEven. -/
def ofNat (n : Nat) : F32 := ofRatio false (n * 2 ^ 149) 1

/-- The order of the numbers and infinities: the magnitude bits with the sign, both zeros at 0. -/
def key : F32 → Int
  | .nan => 0
  | .inf s => if s then -0x7F800000 else 0x7F800000
  | .fin s m => if s then -(m.val : Int) else (m.val : Int)

/-- A NaN compares false with everything. -/
def isNan : F32 → Bool
  | .nan => true
  | .inf _ => false
  | .fin _ _ => false

/-- A number, neither infinite nor NaN. -/
def isFinite : F32 → Bool
  | .nan => false
  | .inf _ => false
  | .fin _ _ => true

/-- The IEEE comparison `x ≤ y`. -/
def le (x y : F32) : Bool := !x.isNan && !y.isNan && decide (x.key ≤ y.key)

/-- The IEEE comparison `x < y`. -/
def lt (x y : F32) : Bool := !x.isNan && !y.isNan && decide (x.key < y.key)

/-- The IEEE comparison `x = y` (the two zeros are equal). -/
def feq (x y : F32) : Bool := !x.isNan && !y.isNan && decide (x.key = y.key)

/-- `fmin(x, y)` of R13: `x` if `x ≤ y` else `y`. -/
def fmin (x y : F32) : F32 := if le x y then x else y

/-- `fmax(x, y)` of R13: `x` if `x ≥ y` else `y`. -/
def fmax (x y : F32) : F32 := if le y x then x else y

/-- Canonical zero (R14): what is stored is +0.0 whenever the value compares equal to zero. -/
def canon (x : F32) : F32 := if feq x zero then zero else x

/-- `floor(x + h/2)` with exact real addition (R13 `floor`, R166), for finite `x ≥ 0`. -/
def floorHalves (x : F32) (h : Nat) : Nat :=
  match x with
  | .fin false m => (units m + h * 2 ^ 148) / 2 ^ 149
  | .fin true m => if m = 0 then h / 2 else Config.floorOpen x h
  | .inf _ => Config.floorOpen x h
  | .nan => Config.floorOpen x h

/-- `floor(x)` of R13. -/
def floor (x : F32) : Nat := floorHalves x 0

end F32

end Sys2Proof
end

