-- ==== Sys2Proof/Machine/Params.lean ====
section
/-! DEFINITION. The configuration as the rules read it: the per-axis parameters, the addresses of the three
views, and which configurations are well formed (R8). -/

namespace Sys2Proof

/-- `BASE_Mk` -/
def Cfg.motorBase (c : Cfg) : Axis → Byte
  | .one => c.baseM1
  | .two => c.baseM2

/-- `DISTANCEk` -/
def Cfg.distance (c : Cfg) : Axis → F32
  | .one => c.distance1
  | .two => c.distance2

/-- The bank address `BASE_SYS + i`.  An address has 8 bits; the sum passes 255 only for a configuration
that R8 (i) calls ill formed. -/
def Cfg.sysAddr (c : Cfg) (i : Nat) : Byte := c.baseSys + BitVec.ofNat 8 i

/-- The bank address `BASE_Mk + i`. -/
def Cfg.motorAddr (c : Cfg) (k : Axis) (i : Nat) : Byte := c.motorBase k + BitVec.ofNat 8 i

/-- Two spans of consecutive addresses share no address. -/
def spansDisjoint (a na b nb : Nat) : Bool := decide (a + na ≤ b) || decide (b + nb ≤ a)

/-- R8 (i): the three spans lie in 0..255 and are pairwise disjoint. -/
def Cfg.spansOk (c : Cfg) : Bool :=
  let s := c.baseSys.toNat
  let a := c.baseM1.toNat
  let b := c.baseM2.toNat
  decide (s + 6 ≤ 255) && decide (a + 13 ≤ 255) && decide (b + 13 ≤ 255) &&
    spansDisjoint s 7 a 14 && spansDisjoint s 7 b 14 && spansDisjoint a 14 b 14

/-- Finite and greater than 0 (R8 (ii)). -/
def F32.positive (x : F32) : Bool := x.isFinite && F32.lt F32.zero x

/-- R8 (iv): a Distance is greater than 0 and finite, or +∞. -/
def F32.distanceOk (x : F32) : Bool := x.positive || decide (x = .inf false)

/-- R8 (ii) to (viii) and the ranges of R7 for `STALL_TICKS` and `RETARGET_DELTA`. -/
def Cfg.valuesOk (c : Cfg) : Bool :=
  c.dt.positive && c.kv.positive && c.ka.positive && c.kj.positive &&
    (c.epsV.isFinite && F32.le F32.zero c.epsV) &&
    c.distance1.distanceOk && c.distance2.distanceOk &&
    (decide (1 ≤ c.stallTicks) && decide (c.stallTicks ≤ 2 ^ 32 - 1)) &&
    (decide (1 ≤ c.retargetDelta) && decide (c.retargetDelta ≤ 255)) &&
    F32.lt F32.zero (F32.mul c.kj c.dt) &&
    F32.lt (F32.div (F32.mul (F32.ofNat 255) c.ka) (F32.mul c.kj c.dt)) (F32.ofNat (2 ^ 24)) &&
    (F32.mul (F32.ofNat 255) c.kv).isFinite && (F32.mul (F32.ofNat 255) c.ka).isFinite &&
    (F32.mul (F32.ofNat 255) c.kj).isFinite

/-- R8: the configuration is well formed. -/
def Cfg.WF (c : Cfg) : Bool := c.spansOk && c.valuesOk

end Sys2Proof
end

