-- ==== Sys2Proof/Machine/Views.lean ====
section
/-! DEFINITION. The typed views of the bank: the MotorView (R33) and the SystemView (R37), their byte images
(R133, R138), and the reset contents of the bank (R242, R243). -/

namespace Sys2Proof.Machine

/-- The MotorView of an axis, one byte per field, in the order of R33. -/
structure MotorView where
  cm : Byte
  en : Byte
  cmd : Byte
  as : Byte
  dir : Byte
  maxs : Byte
  mins : Byte
  vmax : Byte
  amax : Byte
  jmax : Byte
  macc : Byte
  mdec : Byte
  sw : Byte
  ec : Byte
deriving DecidableEq, Repr

/-- The SystemView, one byte per field, in the order of R37. -/
structure SysView where
  devid : Byte
  fwver : Byte
  sysst : Byte
  syserr : Byte
  rsterr : Byte
  baud : Byte
  parity : Byte
deriving DecidableEq, Repr

/-- The 14-byte image of a MotorView, `MV[0]` first (R133). -/
def MotorView.image (v : MotorView) : List Byte :=
  [v.cm, v.en, v.cmd, v.as, v.dir, v.maxs, v.mins, v.vmax, v.amax, v.jmax, v.macc, v.mdec, v.sw, v.ec]

/-- The record of a 14-byte image (R133); an image of another length is none. -/
def MotorView.ofImage : List Byte → Option MotorView
  | [cm, en, cmd, as, dir, maxs, mins, vmax, amax, jmax, macc, mdec, sw, ec] =>
    some ⟨cm, en, cmd, as, dir, maxs, mins, vmax, amax, jmax, macc, mdec, sw, ec⟩
  | _ => none

/-- The 7-byte image of a SystemView, `SV[0]` first (R133). -/
def SysView.image (v : SysView) : List Byte :=
  [v.devid, v.fwver, v.sysst, v.syserr, v.rsterr, v.baud, v.parity]

/-- The record of a 7-byte image (R133). -/
def SysView.ofImage : List Byte → Option SysView
  | [devid, fwver, sysst, syserr, rsterr, baud, parity] =>
    some ⟨devid, fwver, sysst, syserr, rsterr, baud, parity⟩
  | _ => none

/-- `MV[i]`; offsets 14 and up are not part of the view (R98). -/
def MotorView.get (v : MotorView) (i : Nat) : Byte := v.image.getD i 0

/-- `SV[i]`; offsets 7 and up are not part of the view (R98). -/
def SysView.get (v : SysView) (i : Nat) : Byte := v.image.getD i 0

/-- `MV[i] <- b`. -/
def MotorView.set (v : MotorView) (i : Nat) (b : Byte) : MotorView :=
  match i with
  | 0 => { v with cm := b }
  | 1 => { v with en := b }
  | 2 => { v with cmd := b }
  | 3 => { v with as := b }
  | 4 => { v with dir := b }
  | 5 => { v with maxs := b }
  | 6 => { v with mins := b }
  | 7 => { v with vmax := b }
  | 8 => { v with amax := b }
  | 9 => { v with jmax := b }
  | 10 => { v with macc := b }
  | 11 => { v with mdec := b }
  | 12 => { v with sw := b }
  | 13 => { v with ec := b }
  | _ => v

/-- `SV[i] <- b`. -/
def SysView.set (v : SysView) (i : Nat) (b : Byte) : SysView :=
  match i with
  | 0 => { v with devid := b }
  | 1 => { v with fwver := b }
  | 2 => { v with sysst := b }
  | 3 => { v with syserr := b }
  | 4 => { v with rsterr := b }
  | 5 => { v with baud := b }
  | 6 => { v with parity := b }
  | _ => v

/-- INIT_MOTOR_VIEW (R243). -/
def MotorView.initial (c : Cfg) : MotorView :=
  ⟨1, 0, 0, 0, 0, c.defMaxSpeed, c.defMinSpeed, c.defVmax, c.defAmax, c.defJmax, c.defMaxAcc,
    c.defMaxDec, 0, 0⟩

/-- INIT_SYSTEM_VIEW (R242). -/
def SysView.initial (c : Cfg) : SysView :=
  ⟨c.deviceId, c.fwVersion, 0, 0, 0, c.defBaud, c.defParity⟩

/-- The bank that RESET leaves (R240): the three spans hold the reset values of R242 and R243 and every
other cell is ⊥. -/
def Bank.initial (c : Cfg) : Bank :=
  let b := Bank.writeAll [] c.baseSys.toNat (SysView.initial c).image
  let b := Bank.writeAll b c.baseM1.toNat (MotorView.initial c).image
  Bank.writeAll b c.baseM2.toNat (MotorView.initial c).image

end Sys2Proof.Machine
end

