-- ==== Sys2Proof/Machine/Axis.lean ====
section
/-! DEFINITION. The state of one axis: the internal registers (R41), the MotionState (R42), the actuation
outputs (R43, R44) and the overcurrent input (R45), with their reset values (R47, R244), and the locals of
an M_STEP (R180). -/

namespace Sys2Proof.Machine

/-- The mode-controller states (R15, R41 `S_k.mst`). -/
inductive Mst where
  | disabled
  | onOffActive
  | rampActive
  | faulted
deriving DecidableEq, Repr, Inhabited

/-- Direction by name; its wire values are 0, 1, 2 (R15). -/
inductive Direction where
  | idle
  | forward
  | reverse
deriving DecidableEq, Repr, Inhabited

/-- The codes that a fault latches (R211): 0x01 to 0x04. -/
inductive FaultCode where
  | range
  | stall
  | overcurrent
  | config
deriving DecidableEq, Repr, Inhabited

/-- The error code byte of a fault (R211). -/
def FaultCode.byte : FaultCode → Byte
  | .range => 0x01
  | .stall => 0x02
  | .overcurrent => 0x03
  | .config => 0x04

/-- The wire value of a Direction (R15). -/
def Direction.byte : Direction → Byte
  | .idle => 0
  | .forward => 1
  | .reverse => 2

/-- The internal registers `S_k` of an axis (R41). -/
structure AxisRegs where
  /-- the mode-controller state -/
  mst : Mst
  /-- the latched error code -/
  err : Byte
  /-- the last valid Direction -/
  dirEff : Direction
  /-- consecutive active ticks with Actual_Speed ≠ `cmd_eff`, saturating -/
  stallCnt : BitVec 32
  /-- `cmd_eff` of the previous tick -/
  prevCmd : Byte
  /-- the last result of UPDATE in RAMP_ACTIVE, else 0 -/
  done : Bool
  /-- the Status_Word of the last M_STEP -/
  sw : Byte
deriving DecidableEq, Repr

/-- The MotionState `M_k` of an axis (R42). -/
structure Motion where
  vt : F32
  v : F32
  a : F32
  j : F32
  pos : F32
  dist : F32
  dt : F32
  vm : F32
  am : F32
  jm : F32
deriving DecidableEq, Repr

/-- The actuation outputs of an axis (R43, R44): the duty (7 bits), the direction, the strobe of one
OutputPWM call, and the `done_k` output. -/
structure AxisOut where
  duty : BitVec 7
  dir : Direction
  stb : Bool
  done : Bool
deriving DecidableEq, Repr

/-- One axis: `S_k`, `M_k`, its outputs, and its overcurrent input `oc_k` (R45). -/
structure AxisState where
  s : AxisRegs
  m : Motion
  out : AxisOut
  oc : Bool
deriving DecidableEq, Repr

/-- One event `OutputPWM(k, duty, dir)` of the output history (R44). -/
structure PwmCall where
  axis : Axis
  duty : BitVec 7
  dir : Direction
deriving DecidableEq, Repr

/-- The locals of an M_STEP (R180 to R193, R155, R212): which axis it works on and the values its phases
hand to one another.  Each is written before it is read within one M_STEP (log entry 2). -/
structure Locals where
  axis : Axis
  cmdEff : Byte
  rangeBad : Bool
  entered : Bool
  vreq : F32
  /-- the result of RAMP_INIT -/
  ok : Bool
  /-- the result of UPDATE -/
  updDone : Bool
  /-- `AS`, the Actual_Speed of this tick -/
  speed : Byte
  duty : BitVec 7
  /-- the operand of FAULT_LATCH -/
  code : FaultCode
  /-- the Status_Word of this tick -/
  sw : Byte
deriving DecidableEq, Repr

/-- `S_k` after RESET (R244). -/
def AxisRegs.initial : AxisRegs := ⟨.disabled, 0, .idle, 0, 0, false, 0⟩

/-- `M_k` after MS_RESET (R153), which is also its value after RESET (R42). -/
def Motion.atRest (dist : F32) : Motion :=
  ⟨.zero, .zero, .zero, .zero, .zero, dist, .zero, .zero, .zero, .zero⟩

/-- The actuation outputs after RESET (R244). -/
def AxisOut.initial : AxisOut := ⟨0, .idle, false, false⟩

/-- INIT_AXIS_STATE (R244); the overcurrent level is external and is kept (R45). -/
def AxisState.initial (c : Cfg) (k : Axis) (oc : Bool) : AxisState :=
  ⟨.initial, .atRest (c.distance k), .initial, oc⟩

/-- The locals at model launch (log entry 2). -/
def Locals.launch : Locals :=
  ⟨.one, 0, false, false, .zero, false, false, 0, 0, .range, 0⟩

end Sys2Proof.Machine
end

