-- ==== Sys2Proof/Machine/Operands.lean ====
section
/-! DEFINITION. How the operands of the rules are formed: the field values of R99, the clamps of R11 and R182,
the conversions between register bytes and binary32 (R165, R166), the duty (R189), and the decoding of a
bank address (R98). -/

namespace Sys2Proof.Machine

/-- `clamp(x, lo, hi) = min(max(x, lo), hi)` on bytes (R11): `hi` when `lo > hi`. -/
def clampByte (x lo hi : Byte) : Byte := BitVec.ofNat 8 (min (max x.toNat lo.toNat) hi.toNat)

/-- `sat8(n) = min(n, 255)` (R11). -/
def sat8 (n : Nat) : Nat := min n 255

/-- `trunc8(n) = n mod 256` (R11). -/
def trunc8 (n : Nat) : Byte := BitVec.ofNat 8 (n % 256)

/-- Control_Mode: 1 selects ON_OFF, 2 selects RAMP, every other byte selects no mode (R99, R184). -/
def selectedMode (b : Byte) : Option Mst :=
  if b = 1 then some .onOffActive else if b = 2 then some .rampActive else none

/-- Enable is ENABLE only for the byte 1 (R99). -/
def isEnabled (b : Byte) : Bool := decide (b = 1)

/-- Direction 0, 1, 2; every other byte is invalid (R99). -/
def directionOf (b : Byte) : Option Direction :=
  if b = 0 then some .idle else if b = 1 then some .forward else if b = 2 then some .reverse else none

/-- Bit 0 of Reset_Error_Command (R99, R131). -/
def resetRequest (b : Byte) : Bool := decide (b.toNat % 2 = 1)

/-- ON_OFF_ACTIVE or RAMP_ACTIVE (R19 "active state"). -/
def Mst.active : Mst → Bool
  | .disabled => false
  | .onOffActive => true
  | .rampActive => true
  | .faulted => false

/-- The state that the (Enable, Control_Mode) pair of an image asks for (R184). -/
def requestedMst (v : MotorView) : Mst :=
  match isEnabled v.en, selectedMode v.cm with
  | true, some m => m
  | true, none => .disabled
  | false, _ => .disabled

/-- `cmd_eff` (R182). -/
def effectiveCommand (v : MotorView) : Byte := clampByte v.cmd v.mins v.maxs

/-- `range_bad` (R182). -/
def rangeIsBad (v : MotorView) : Bool := decide (v.maxs.toNat < v.mins.toNat)

/-- `vreq = fp(cmd_eff) × KV` (R165). -/
def requestedVelocity (c : Cfg) (cmdEff : Byte) : F32 := F32.mul (F32.ofNat cmdEff.toNat) c.kv

/-- Actual_Speed from the velocity (R166): one division, round half away from zero with exact addition,
saturation to a byte, and the cap at Max_Speed. -/
def speedOfVelocity (c : Cfg) (maxs : Byte) (v : F32) : Byte :=
  BitVec.ofNat 8 (min (sat8 (F32.floorHalves (F32.div (F32.abs v) c.kv) 1)) maxs.toNat)

/-- The duty of R189, 0..100. -/
def dutyOf (mst : Mst) (speed maxs : Byte) : BitVec 7 :=
  if mst.active ∧ maxs ≠ 0 then BitVec.ofNat 7 (min 100 (speed.toNat * 100 / maxs.toNat)) else 0

/-- The distance between two effective commands, `|cmd_eff − prev_cmd|` (R154, R187). -/
def commandChange (a b : Byte) : Nat := (a.toNat - b.toNat) + (b.toNat - a.toNat)

/-- What a bank address names (R98). -/
inductive CellName where
  | motor (k : Axis) (off : Nat)
  | system (off : Nat)
  | free
deriving DecidableEq, Repr

/-- The address decode of R98. -/
def decodeAddr (c : Cfg) (x : Byte) : CellName :=
  let n := x.toNat
  if c.baseM1.toNat ≤ n ∧ n ≤ c.baseM1.toNat + 13 then .motor .one (n - c.baseM1.toNat)
  else if c.baseM2.toNat ≤ n ∧ n ≤ c.baseM2.toNat + 13 then .motor .two (n - c.baseM2.toNat)
  else if c.baseSys.toNat ≤ n ∧ n ≤ c.baseSys.toNat + 6 then .system (n - c.baseSys.toNat)
  else .free

end Sys2Proof.Machine
end

