-- ==== Sys2Proof/Machine/Flags.lean ====
section
/-! DEFINITION. The status flags of the block (R48): the Status_Word (R36, R192), System_Status (R39) and
System_Error (R40). -/

namespace Sys2Proof.Machine

/-- The Status_Word (R36): bit 0 RUNNING, bit 1 ENABLED, bit 2 AT_TARGET, bit 3 FAULTED, bits 7..4 zero. -/
def statusBits (faulted atTarget enabled running : Bool) : Byte :=
  0#4 ++ BitVec.ofBool faulted ++ BitVec.ofBool atTarget ++ BitVec.ofBool enabled ++ BitVec.ofBool running

/-- The Status_Word of R192, from the Actual_Speed, the effective command and the state after P7. -/
def statusWordOf (mst : Mst) (speed cmdEff : Byte) : Byte :=
  statusBits (decide (mst = .faulted)) (mst.active && decide (speed = cmdEff)) mst.active
    (decide (speed ≠ 0))

/-- System_Status (R39, R135): bits 0 and 1 the FAULTED state of axes 1 and 2, bits 2 and 3 their RUNNING
bits, bits 7..4 zero. -/
def systemStatusOf (a b : AxisRegs) : Byte :=
  0#4 ++ BitVec.ofBool (b.sw.getLsbD 0) ++ BitVec.ofBool (a.sw.getLsbD 0) ++
    BitVec.ofBool (decide (b.mst = .faulted)) ++ BitVec.ofBool (decide (a.mst = .faulted))

/-- System_Error (R40): axis 1's code if it is not 0, else axis 2's. -/
def systemErrorOf (a b : AxisRegs) : Byte := if a.err ≠ 0 then a.err else b.err

/-- Reset_Error_Command as it is saved (R135): a request is consumed, any other byte passes through. -/
def consumedRequest (rr : Bool) (b : Byte) : Byte := if rr then 0 else b

end Sys2Proof.Machine
end

