-- ==== Sys2Proof/Machine/State.lean ====
section
/-! DEFINITION. The state of the block as plain data: every piece of state the spec names, and the fields
the model adds (INVENTORY.md, "State", marks those), the outcomes that are no next state, and the state
after reset. -/

namespace Sys2Proof.Machine

/-- The levels and strobes of the input ports in one cycle (R43). -/
structure Pins where
  rst : Bool
  tick : Bool
  hpWe : Bool
  hpRe : Bool
  hpAddr : Byte
  hpWdata : Byte
  /-- `oc_in[0]` -/
  oc1 : Bool
  /-- `oc_in[1]` -/
  oc2 : Bool
deriving DecidableEq, Repr

/-- One step of an agent, as the outside world schedules it (R18: the agents' steps interleave in any
order; log entry 1). -/
inductive Event where
  /-- The host or the tick timer performs the operation of a stimulus word (R91). -/
  | stim (w : Word32)
  /-- The input ports take these levels for one cycle (R43, R94). -/
  | pins (p : Pins)
  /-- The host accesses a MotorView field (R98, R103). -/
  | mreg (w : Word32)
  /-- The host accesses a SystemView field (R98, R103). -/
  | sreg (w : Word32)
  /-- A sub-operation is performed alone, on the locals (R97; log entry 2). -/
  | subop (w : Word32)
  /-- The core sequencer, or a held TICK, takes its step (R130). -/
  | core
deriving DecidableEq, Repr

/-- The state of the block. -/
structure State where
  /-- the configuration, constant (R7) -/
  cfg : Cfg
  /-- the Register Bank (R32) -/
  bank : Bank
  /-- axis 1 (R41 to R45) -/
  ax1 : AxisState
  /-- axis 2 (R41 to R45) -/
  ax2 : AxisState
  /-- the output history, oldest first (R44) -/
  calls : List PwmCall
  /-- the host read data port (R43, R121) -/
  hpRdata : Byte
  /-- the micro-op word of the next micro-op, or IDLE (R46, R95) -/
  seq : Option Uop16
  /-- the SystemView image of the tick in progress (R46) -/
  sv : SysView
  /-- the MotorView image of the axis in progress (R46) -/
  mv : MotorView
  /-- the reset request of the tick in progress (R46) -/
  rr : Bool
  /-- the TICKs held while a tick is in progress (R130, R255) -/
  heldTicks : Nat
  /-- the locals of an M_STEP (R180) -/
  loc : Locals
  /-- how many free bytes have been drawn (R121; the model's own counter) -/
  draws : Nat
  /-- the agents' steps still to come, next first (the model's own input) -/
  sched : List Event
deriving DecidableEq, Repr

/-- The reasons for which the block stops with a fault: there are none.  R210: "No host operation and no
stimulus word can fault", and a latched fault of an axis is state, not a stop. -/
inductive Fault
deriving DecidableEq, Repr

/-- The reasons for which a step has no meaning.  Each is raised where the spec says that a model refuses,
and each is safe: nothing is claimed of a machine that goes on. -/
inductive Refusal where
  /-- Raised by exec's arm of an operation that has no meaning yet; no arm raises it. Safe. -/
  | notModelled (mnemonic : String)
  /-- Raised by step when the configuration is not well formed (R8, I3). Safe. -/
  | illFormedConfig
  /-- Raised when a stimulus word spells no operation (R94, I4). Safe. -/
  | invalidStimulus
  /-- Raised when `seq` holds a reserved micro-op word, or by a micro-op whose index lies outside its view
  (R96, I5). Safe. -/
  | reservedUop
  /-- Raised when a sub-operation code is none of R97's. Safe. -/
  | unknownSubop
  /-- Raised when a field word names no field of a view (R98). Safe. -/
  | notAField
  /-- Raised by a port cycle that asserts `hp_we` with `hp_re`, or `rst` with another strobe (R94, I6).
  Safe. -/
  | strobeConflict
deriving DecidableEq, Repr

/-- The state at model launch with a given configuration: RESET's state (R240, R247), both overcurrent
levels 0, the history empty, and the values that log entries 5 and 6 name where the spec gives none. -/
def State.launch (c : Cfg) : State where
  cfg := c
  bank := Bank.initial c
  ax1 := AxisState.initial c .one false
  ax2 := AxisState.initial c .two false
  calls := []
  hpRdata := 0
  seq := none
  sv := ⟨0, 0, 0, 0, 0, 0, 0⟩
  mv := ⟨0, 0, 0, 0, 0, 0, 0, 0, 0, 0, 0, 0, 0, 0⟩
  rr := false
  heldTicks := 0
  loc := Locals.launch
  draws := 0
  sched := []

/-- The machine right after reset, with the default configuration (R7, R47, R240, R247). -/
def State.reset : State := State.launch Cfg.default

end Sys2Proof.Machine
end

