-- ==== Sys2Proof/Machine/Ops.lean ====
section
/-! DEFINITION. The shared operations: bank accesses, the part of the state that an M_STEP sees (R139), the
fault latch (R214) and the clear (R218), which are this block's taking of an exception and return from
one, and RESET (R240). -/

namespace Sys2Proof.Machine

/-- `busy = (seq ≠ IDLE)` (R46). -/
def State.busy (s : State) : Bool := s.seq.isSome

/-- Axis k. -/
def State.ax (s : State) : Axis → AxisState
  | .one => s.ax1
  | .two => s.ax2

/-- Replaces axis k. -/
def State.setAx (s : State) (k : Axis) (a : AxisState) : State :=
  match k with
  | .one => { s with ax1 := a }
  | .two => { s with ax2 := a }

/-- The cell of a bank address: a byte, or `none` for ⊥. -/
def State.cell (s : State) (a : Byte) : Option Byte := Bank.read s.bank a.toNat

/-- The byte that a read of `bank[a]` returns: the byte of the cell, and for ⊥ the next free byte
(R121, I1). -/
def State.byteAt (s : State) (a : Byte) : Byte := (s.cell a).getD (Config.freeByte s.draws)

/-- The count of free bytes drawn after a read of `bank[a]`: a ⊥ cell draws a fresh one. -/
def State.drawsAfter (s : State) (a : Byte) : Nat :=
  match s.cell a with
  | some _ => s.draws
  | none => s.draws + 1

/-- `bank[a] <- v` (R12, R122). -/
def State.store (s : State) (a v : Byte) : State := { s with bank := Bank.write s.bank a.toNat v }

/-- A host read of one cell: `hp_rdata` takes the byte (R121). -/
def State.hostRead (s : State) (a : Byte) : State :=
  { s with hpRdata := s.byteAt a, draws := s.drawsAfter a }

/-- What an M_STEP of one axis reads and writes (R139): the configuration, the axis, `MV`, `rr`, the
locals and the output history, and nothing of the other axis, the bank or the sequencer. -/
structure Env where
  cfg : Cfg
  ax : AxisState
  mv : MotorView
  rr : Bool
  loc : Locals
  calls : List PwmCall
deriving DecidableEq, Repr

/-- What an M_STEP of axis k sees of the state. -/
def State.env (s : State) (k : Axis) : Env := ⟨s.cfg, s.ax k, s.mv, s.rr, s.loc, s.calls⟩

/-- Puts back what an M_STEP of axis k may write. -/
def State.putEnv (s : State) (k : Axis) (e : Env) : State :=
  { s.setAx k e.ax with mv := e.mv, loc := e.loc, calls := e.calls }

/-- A sub-operation performed on the axis that the locals name. -/
def State.onLocals (s : State) (f : Env → Env) : State :=
  s.putEnv s.loc.axis (f (s.env s.loc.axis))

/-- MS_RESET (R153). -/
def Env.msReset (e : Env) : Env :=
  { e with ax.m := Motion.atRest (e.cfg.distance e.loc.axis), ax.s.done := false }

/-- FAULT_LATCH (R214), the `raise` primitive of the block (R12): the code, the state FAULTED, the stall
counter, and MS_RESET. -/
def Env.latchFault (e : Env) (code : FaultCode) : Env :=
  { e with ax.s.err := code.byte, ax.s.mst := .faulted, ax.s.stallCnt := 0 }.msReset

/-- CLEAR_ERROR (R218), the return from the fault state. -/
def Env.clearError (e : Env) : Env :=
  { e with ax.s.err := 0, ax.s.mst := .disabled, ax.s.stallCnt := 0 }

/-- RESET (R240, R241, R244): the tick in progress and a held TICK are dropped, the bank and both axes take
their reset values; the overcurrent levels and the output history are kept (R44, R45). -/
def State.doReset (s : State) : State :=
  { s with
    seq := none
    heldTicks := 0
    bank := Bank.initial s.cfg
    ax1 := AxisState.initial s.cfg .one s.ax1.oc
    ax2 := AxisState.initial s.cfg .two s.ax2.oc }

end Sys2Proof.Machine
end

