-- ==== Sys2Proof/Machine/Fields.lean ====
section
/-! DEFINITION. The accesses of the host to the register-map fields (R33, R37, R98): a read (`rdm`, `rds`) or a
write (`wrm`, `wrs`) of R103 at the cell that the address decode gives the field.  Every cell is
readable and writable by the host (R60, R222); the core overwrites the core-owned ones at its saves. -/

namespace Sys2Proof.Machine

/-- A host access to one cell: HOST_RD (R121) or HOST_WR (R122). -/
def State.access (s : State) (a : Byte) : Access → State
  | .rd => s.hostRead a
  | .wr d => s.store a d

/-- A host access to offset `off` of the MotorView of axis k (R33, R98, R103). -/
def State.motorField (s : State) (k : Axis) (off : Nat) (acc : Access) : State :=
  s.access (s.cfg.motorAddr k off) acc

/-- A host access to offset `off` of the SystemView (R37, R98, R103). -/
def State.systemField (s : State) (off : Nat) (acc : Access) : State :=
  s.access (s.cfg.sysAddr off) acc

/-- Control_Mode, MotorView offset 0 (R33). -/
def execControlMode (k : Axis) (acc : Access) (s : State) : Host.Outcome State Fault Refusal :=
  .next (s.motorField k 0 acc)

/-- Enable, MotorView offset 1 (R33). -/
def execEnable (k : Axis) (acc : Access) (s : State) : Host.Outcome State Fault Refusal :=
  .next (s.motorField k 1 acc)

/-- Command_Speed, MotorView offset 2 (R33). -/
def execCommandSpeed (k : Axis) (acc : Access) (s : State) : Host.Outcome State Fault Refusal :=
  .next (s.motorField k 2 acc)

/-- Actual_Speed, MotorView offset 3 (R33). -/
def execActualSpeed (k : Axis) (acc : Access) (s : State) : Host.Outcome State Fault Refusal :=
  .next (s.motorField k 3 acc)

/-- Direction, MotorView offset 4 (R33). -/
def execDirection (k : Axis) (acc : Access) (s : State) : Host.Outcome State Fault Refusal :=
  .next (s.motorField k 4 acc)

/-- Max_Speed, MotorView offset 5 (R33). -/
def execMaxSpeed (k : Axis) (acc : Access) (s : State) : Host.Outcome State Fault Refusal :=
  .next (s.motorField k 5 acc)

/-- Min_Speed, MotorView offset 6 (R33). -/
def execMinSpeed (k : Axis) (acc : Access) (s : State) : Host.Outcome State Fault Refusal :=
  .next (s.motorField k 6 acc)

/-- Vmax, MotorView offset 7 (R33). -/
def execVmax (k : Axis) (acc : Access) (s : State) : Host.Outcome State Fault Refusal :=
  .next (s.motorField k 7 acc)

/-- Amax, MotorView offset 8 (R33). -/
def execAmax (k : Axis) (acc : Access) (s : State) : Host.Outcome State Fault Refusal :=
  .next (s.motorField k 8 acc)

/-- Jmax, MotorView offset 9 (R33). -/
def execJmax (k : Axis) (acc : Access) (s : State) : Host.Outcome State Fault Refusal :=
  .next (s.motorField k 9 acc)

/-- Max_Acc, MotorView offset 10 (R33). -/
def execMaxAcc (k : Axis) (acc : Access) (s : State) : Host.Outcome State Fault Refusal :=
  .next (s.motorField k 10 acc)

/-- Max_Dec, MotorView offset 11 (R33). -/
def execMaxDec (k : Axis) (acc : Access) (s : State) : Host.Outcome State Fault Refusal :=
  .next (s.motorField k 11 acc)

/-- Status_Word, MotorView offset 12 (R33). -/
def execStatusWord (k : Axis) (acc : Access) (s : State) : Host.Outcome State Fault Refusal :=
  .next (s.motorField k 12 acc)

/-- Error_Code, MotorView offset 13 (R33). -/
def execErrorCode (k : Axis) (acc : Access) (s : State) : Host.Outcome State Fault Refusal :=
  .next (s.motorField k 13 acc)

/-- Device_ID, SystemView offset 0 (R37). -/
def execDeviceId (acc : Access) (s : State) : Host.Outcome State Fault Refusal :=
  .next (s.systemField 0 acc)

/-- Firmware_Version, SystemView offset 1 (R37). -/
def execFirmwareVersion (acc : Access) (s : State) : Host.Outcome State Fault Refusal :=
  .next (s.systemField 1 acc)

/-- System_Status, SystemView offset 2 (R37). -/
def execSystemStatus (acc : Access) (s : State) : Host.Outcome State Fault Refusal :=
  .next (s.systemField 2 acc)

/-- System_Error, SystemView offset 3 (R37). -/
def execSystemError (acc : Access) (s : State) : Host.Outcome State Fault Refusal :=
  .next (s.systemField 3 acc)

/-- Reset_Error_Command, SystemView offset 4 (R37). -/
def execResetErrorCommand (acc : Access) (s : State) : Host.Outcome State Fault Refusal :=
  .next (s.systemField 4 acc)

/-- Config_Baudrate, SystemView offset 5 (R37). -/
def execConfigBaudrate (acc : Access) (s : State) : Host.Outcome State Fault Refusal :=
  .next (s.systemField 5 acc)

/-- Config_Parity, SystemView offset 6 (R37). -/
def execConfigParity (acc : Access) (s : State) : Host.Outcome State Fault Refusal :=
  .next (s.systemField 6 acc)

end Sys2Proof.Machine
end

