-- ==== Sys2Proof/Machine/HostOps.lean ====
section
/-! DEFINITION. The operations of the host and RESET (R120 to R124, R240). -/

namespace Sys2Proof.Machine

/-- NOP (R120). -/
def execNop (s : State) : Host.Outcome State Fault Refusal := .next s

/-- HOST_RD addr (R121). -/
def execHostRd (addr : Byte) (s : State) : Host.Outcome State Fault Refusal := .next (s.hostRead addr)

/-- HOST_WR addr, data (R122). -/
def execHostWr (addr data : Byte) (s : State) : Host.Outcome State Fault Refusal := .next (s.store addr data)

/-- `oc_k <- level` (R123). -/
def State.setOvercurrent (s : State) (k : Axis) (level : Bool) : State :=
  s.setAx k { s.ax k with oc := level }

/-- SET_OC k, level (R123). -/
def execSetOc (k : Axis) (level : Bool) (s : State) : Host.Outcome State Fault Refusal :=
  .next (s.setOvercurrent k level)

/-- RESET (R240). -/
def execReset (s : State) : Host.Outcome State Fault Refusal := .next s.doReset

end Sys2Proof.Machine
end

