-- ==== Sys2Proof/Machine/Profile.lean ====
section
/-! DEFINITION. The Motion Profile Generator (R150 to R168): RAMP_INIT, MS_RESET, RETARGET and UPDATE. -/

namespace Sys2Proof.Machine

/-- RAMP_INIT accepts the limits exactly when none of them is 0 (R151, R152). -/
def limitsOk (v : MotorView) : Bool := decide (v.vmax ≠ 0) && decide (v.amax ≠ 0) && decide (v.jmax ≠ 0)

/-- The MotionState that RAMP_INIT sets (R151), each value stored with canonical zero (R14). -/
def Motion.rampStart (c : Cfg) (k : Axis) (v : MotorView) : Motion :=
  { Motion.atRest (c.distance k) with
    vm := F32.canon (F32.mul (F32.ofNat v.vmax.toNat) c.kv)
    am := F32.canon (F32.mul (F32.ofNat v.amax.toNat) c.ka)
    jm := F32.canon (F32.mul (F32.ofNat v.jmax.toNat) c.kj)
    dt := c.dt }

/-- RAMP_INIT (R151): the operands are the limits of the image, the result is the local `ok`. -/
def Env.rampInit (e : Env) : Env :=
  { e with
    ax.m := Motion.rampStart e.cfg e.loc.axis e.mv
    ax.s.done := false
    loc.ok := limitsOk e.mv }

/-- RETARGET (R154): only the position integral restarts. -/
def Env.retarget (e : Env) : Env := { e with ax.m.pos := .zero }

/-- UPDATE step U1 (R156): the target clamped to ±VM. -/
def targetVelocity (m : Motion) (vreq : F32) : F32 := F32.fmin (F32.fmax vreq (F32.neg m.vm)) m.vm

/-- UPDATE step U3 (R156): the largest change of `a` in one tick. -/
def jerkStep (m : Motion) : F32 := F32.mul m.jm m.dt

/-- UPDATE step U4a (R157): the acceleration decays toward 0 by at most `dA`. -/
def decayedAccel (dA a0 : F32) : F32 :=
  if F32.le (F32.abs a0) dA then F32.zero
  else if F32.lt F32.zero a0 then F32.sub a0 dA
  else F32.add a0 dA

/-- The number of ticks that the brake takes (R158). -/
def brakeTicks (dA m : F32) : Nat := F32.floor (F32.div m dA)

/-- The brake gain `G(c)` (R158), evaluated in the order shown there. -/
def brakeGain (dA dt c : F32) : F32 :=
  let m := F32.abs c
  let n := brakeTicks dA m
  let t1 := F32.mul (F32.ofNat n) m
  let t2 := F32.mul dA (F32.ofNat (n * (n + 1) / 2))
  let g := F32.mul dt (F32.sub t1 t2)
  if F32.le F32.zero c then g else F32.neg g

/-- The test of R159: after one tick at acceleration `c`, braking at the jerk limit still ends at or below
the target. -/
def stopsInTime (dA dt vs ts c : F32) : Bool :=
  F32.le (F32.add (F32.add vs (F32.mul c dt)) (brakeGain dA dt c)) ts

/-- `s·x` for s = +1 (`up`) or −1: an exact sign flip (R159). -/
def signed (up : Bool) (x : F32) : F32 := if up then x else F32.neg x

/-- UPDATE step U4b (R159): the first of the three candidates that can still stop, else the last. -/
def steeredAccel (m : Motion) (dA vt e : F32) : F32 :=
  let up := F32.lt F32.zero e
  let vs := signed up m.v
  let as := signed up m.a
  let ts := signed up vt
  let c1 := F32.fmin m.am (F32.add as dA)
  let c2 := as
  let c3 := F32.fmax (F32.neg m.am) (F32.sub as dA)
  signed up (([c1, c2, c3].find? (stopsInTime dA m.dt vs ts)).getD c3)

/-- UPDATE step U4 (R157, R159). -/
def nextAccel (m : Motion) (dA vt e : F32) : F32 :=
  if F32.feq e F32.zero then decayedAccel dA m.a else steeredAccel m dA vt e

/-- The condition of UPDATE step U6 (R160): the velocity reaches or passes the target, or is within one
tick's change of it. -/
def snapsToTarget (vt e vr dV : F32) : Bool :=
  (F32.le F32.zero e && F32.le vt vr) || (F32.le e F32.zero && F32.le vr vt) ||
    F32.le (F32.abs (F32.sub vt vr)) dV

/-- A value limited to ±bound, in the order `fmin(bound, fmax(−bound, x))` of U7 and U8. -/
def limitTo (bound x : F32) : F32 := F32.fmin bound (F32.fmax (F32.neg bound) x)

/-- The values that UPDATE computes from a MotionState (R156 to R162): the new `vt`, `a`, `v`, `j`, `pos`. -/
def Motion.update (m : Motion) (vreq : F32) : Motion :=
  let vt := targetVelocity m vreq
  let e := F32.sub vt m.v
  let dA := jerkStep m
  let dV := F32.mul dA m.dt
  let a1 := nextAccel m dA vt e
  let vr := F32.add m.v (F32.mul a1 m.dt)
  let snap := snapsToTarget vt e vr dV
  let v1 := limitTo m.vm (if snap then vt else vr)
  let a1 := if snap && F32.le (F32.abs m.a) dA then F32.zero else a1
  let j := limitTo m.jm (F32.div (F32.sub a1 m.a) m.dt)
  let p1 := F32.add m.pos (F32.mul v1 m.dt)
  { m with
    vt := F32.canon vt
    a := F32.canon a1
    v := F32.canon v1
    j := F32.canon j
    pos := F32.canon p1 }

/-- UPDATE step U11 (R164), on the stored values. -/
def Motion.arrived (c : Cfg) (m : Motion) : Bool :=
  F32.le (F32.abs (F32.sub m.vt m.v)) c.epsV &&
    (decide (m.dist = .inf false) || F32.le m.dist (F32.abs m.pos))

/-- UPDATE (R155): the operand is the local `vreq`, the result is the local `updDone`. -/
def Env.update (e : Env) : Env :=
  let m := e.ax.m.update e.loc.vreq
  { e with ax.m := m, loc.updDone := m.arrived e.cfg }

/-- RAMP_INIT (R151). -/
def execRampInit (s : State) : Host.Outcome State Fault Refusal := .next (s.onLocals Env.rampInit)

/-- MS_RESET (R153). -/
def execMsReset (s : State) : Host.Outcome State Fault Refusal := .next (s.onLocals Env.msReset)

/-- RETARGET (R154). -/
def execRetarget (s : State) : Host.Outcome State Fault Refusal := .next (s.onLocals Env.retarget)

/-- UPDATE (R155). -/
def execUpdate (s : State) : Host.Outcome State Fault Refusal := .next (s.onLocals Env.update)

end Sys2Proof.Machine
end

