-- ==== Sys2Proof/Machine/Faults.lean ====
section
/-! DEFINITION. The Fault Monitor (R211 to R220): CHECK_ERROR, FAULT_LATCH and CLEAR_ERROR. -/

namespace Sys2Proof.Machine

/-- The stall counter after this tick's comparison (R212): 0 when Actual_Speed is on the effective
command, else one more, saturating at 2^32 − 1. -/
def countStall (cnt : BitVec 32) (speed cmdEff : Byte) : BitVec 32 :=
  if speed = cmdEff then 0 else BitVec.ofNat 32 (min (cnt.toNat + 1) (2 ^ 32 - 1))

/-- The first true condition in the order OVERCURRENT, RANGE, STALL (R212, R213, R215). -/
def detectedFault (oc rangeBad : Bool) (cnt : BitVec 32) (stallTicks : Nat) : Option FaultCode :=
  if oc then some .overcurrent
  else if rangeBad then some .range
  else if stallTicks ≤ cnt.toNat then some .stall
  else none

/-- CHECK_ERROR (R212). -/
def Env.checkError (e : Env) : Env :=
  let cnt := countStall e.ax.s.stallCnt e.loc.speed e.loc.cmdEff
  let e := { e with ax.s.stallCnt := cnt }
  match detectedFault e.ax.oc e.loc.rangeBad cnt e.cfg.stallTicks with
  | some code => { e with loc.code := code }.latchFault code
  | none => e

/-- CHECK_ERROR (R212). -/
def execCheckError (s : State) : Host.Outcome State Fault Refusal := .next (s.onLocals Env.checkError)

/-- FAULT_LATCH (R214), of the code in the locals. -/
def execFaultLatch (s : State) : Host.Outcome State Fault Refusal :=
  .next (s.onLocals fun e => e.latchFault e.loc.code)

/-- CLEAR_ERROR (R218). -/
def execClearError (s : State) : Host.Outcome State Fault Refusal := .next (s.onLocals Env.clearError)

end Sys2Proof.Machine
end

