-- ==== Sys2Proof/Machine/Phases.lean ====
section
/-! DEFINITION. The Mode Controller (R180 to R196): the phases P1 to P9 and M_STEP, which performs them in
order. -/

namespace Sys2Proof.Machine

/-- P1 DIR_SANITIZE (R181). -/
def Env.dirSanitize (e : Env) : Env :=
  match directionOf e.mv.dir with
  | some d => { e with ax.s.dirEff := d }
  | none => e

/-- P2 CMD_CLAMP (R182). -/
def Env.cmdClamp (e : Env) : Env :=
  { e with loc.cmdEff := effectiveCommand e.mv, loc.rangeBad := rangeIsBad e.mv }

/-- P3 RESET_ERROR (R183). -/
def Env.resetError (e : Env) : Env :=
  if e.ax.s.mst = .faulted ∧ e.rr = true ∧ isEnabled e.mv.en = false then e.clearError else e

/-- TRANSITION into an active or inactive state (R185); entering RAMP_ACTIVE with a zero limit latches
CONFIG instead. -/
def Env.transition (e : Env) (new : Mst) : Env :=
  let e := { e with ax.s.stallCnt := 0 }
  if new = .rampActive then
    let e := e.rampInit
    if e.loc.ok then { e with ax.s.mst := new } else e.latchFault .config
  else { e.msReset with ax.s.mst := new }

/-- The selection of P4 (R184). -/
def Env.select (e : Env) : Env :=
  let new := requestedMst e.mv
  if e.ax.s.mst ≠ .faulted ∧ new ≠ e.ax.s.mst then e.transition new else e

/-- P4 MODE_SELECT (R184), with `was` and `entered` of R180. -/
def Env.modeSelect (e : Env) : Env :=
  let t := e.select
  { t with loc.entered := decide (t.ax.s.mst ≠ e.ax.s.mst) }

/-- P5 HANDLE_ONOFF (R186). -/
def Env.handleOnOff (e : Env) : Env := { e with loc.speed := e.loc.cmdEff, ax.s.done := false }

/-- The retarget test of P5 HANDLE_RAMP (R187): a material change of the effective command restarts the
position integral, except in the tick of entry. -/
def Env.retargetIfMaterial (e : Env) : Env :=
  if e.loc.entered = false ∧ e.cfg.retargetDelta ≤ commandChange e.loc.cmdEff e.ax.s.prevCmd then e.retarget
  else e

/-- P5 HANDLE_RAMP (R187). -/
def Env.handleRamp (e : Env) : Env :=
  let e := e.retargetIfMaterial
  let e := { e with loc.vreq := requestedVelocity e.cfg e.loc.cmdEff }.update
  { e with
    ax.s.done := e.loc.updDone
    loc.speed := speedOfVelocity e.cfg e.mv.maxs e.ax.m.v }

/-- P5 HANDLE_IDLE (R188). -/
def Env.handleIdle (e : Env) : Env := { e with loc.speed := 0, ax.s.done := false }

/-- The handler of the state after P4 (R180 P5). -/
def Env.handle (e : Env) : Env :=
  match e.ax.s.mst with
  | .disabled => e.handleIdle
  | .onOffActive => e.handleOnOff
  | .rampActive => e.handleRamp
  | .faulted => e.handleIdle

/-- The end of P5, in every state (R180, R41 `prev_cmd`). -/
def Env.recordCommand (e : Env) : Env := { e with ax.s.prevCmd := e.loc.cmdEff }

/-- P6 DUTY (R189). -/
def Env.setDuty (e : Env) : Env := { e with loc.duty := dutyOf e.ax.s.mst e.loc.speed e.mv.maxs }

/-- P6 ACTUATE (R190): one OutputPWM call. -/
def Env.actuate (e : Env) : Env :=
  { e with
    ax.out.duty := e.loc.duty
    ax.out.dir := e.ax.s.dirEff
    ax.out.stb := true
    calls := e.calls ++ [⟨e.loc.axis, e.loc.duty, e.ax.s.dirEff⟩] }

/-- P7 FAULT_MONITOR (R191). -/
def Env.monitor (e : Env) : Env := if e.ax.s.mst.active then e.checkError else e

/-- P8 STATUS (R192). -/
def Env.status (e : Env) : Env :=
  let sw := statusWordOf e.ax.s.mst e.loc.speed e.loc.cmdEff
  { e with loc.sw := sw, ax.s.sw := sw }

/-- P9 WRITEBACK (R193): Actual_Speed, Status_Word and Error_Code are replaced, the host-owned bytes are
kept as loaded. -/
def Env.writeback (e : Env) : Env :=
  { e with
    mv.as := e.loc.speed
    mv.sw := e.loc.sw
    mv.ec := e.ax.s.err
    ax.out.done := e.ax.s.done }

/-- The phases P1 to P9 of R180, in order. -/
def Env.mStep (e : Env) : Env :=
  e.dirSanitize.cmdClamp.resetError.modeSelect.handle.recordCommand.setDuty.actuate.monitor.status.writeback

/-- M_STEP(k) (R180): the phases on axis k; its locals are gone afterwards. -/
def State.mStep (s : State) (k : Axis) : State :=
  { s.putEnv k { s.env k with loc.axis := k }.mStep with loc := s.loc }

/-- M_STEP(k) (R180). -/
def execMStep (k : Axis) (s : State) : Host.Outcome State Fault Refusal := .next (s.mStep k)

/-- P1_DIR_SANITIZE (R181). -/
def execP1DirSanitize (s : State) : Host.Outcome State Fault Refusal := .next (s.onLocals Env.dirSanitize)

/-- P2_CMD_CLAMP (R182). -/
def execP2CmdClamp (s : State) : Host.Outcome State Fault Refusal := .next (s.onLocals Env.cmdClamp)

/-- P3_RESET_ERROR (R183). -/
def execP3ResetError (s : State) : Host.Outcome State Fault Refusal := .next (s.onLocals Env.resetError)

/-- P4_MODE_SELECT (R184, R185). -/
def execP4ModeSelect (s : State) : Host.Outcome State Fault Refusal := .next (s.onLocals Env.modeSelect)

/-- P5_HANDLE_ONOFF (R186). -/
def execP5HandleOnOff (s : State) : Host.Outcome State Fault Refusal := .next (s.onLocals Env.handleOnOff)

/-- P5_HANDLE_RAMP (R187). -/
def execP5HandleRamp (s : State) : Host.Outcome State Fault Refusal := .next (s.onLocals Env.handleRamp)

/-- P5_HANDLE_IDLE (R188). -/
def execP5HandleIdle (s : State) : Host.Outcome State Fault Refusal := .next (s.onLocals Env.handleIdle)

/-- P6_DUTY (R189). -/
def execP6Duty (s : State) : Host.Outcome State Fault Refusal := .next (s.onLocals Env.setDuty)

/-- P6_ACTUATE (R190). -/
def execP6Actuate (s : State) : Host.Outcome State Fault Refusal := .next (s.onLocals Env.actuate)

/-- P8_STATUS (R192). -/
def execP8Status (s : State) : Host.Outcome State Fault Refusal := .next (s.onLocals Env.status)

/-- P9_WRITEBACK (R193). -/
def execP9Writeback (s : State) : Host.Outcome State Fault Refusal := .next (s.onLocals Env.writeback)

end Sys2Proof.Machine
end

