-- ==== Sys2Proof/WellFormed.lean ====
section
/-! DEFINITION. Which operations are well formed: the IDX ranges of R96 (0..6 for a SystemView byte,
0..13 for a MotorView byte).  Every other operand is legal at every value of its field. -/

namespace Sys2Proof

/-- R96: SYS_LOAD and SYS_SAVE take IDX 0..6, M_LOAD and M_SAVE take IDX 0..13; the other index
values are reserved.  No other operation has an operand value that is reserved. -/
def Instr.WF : Instr → Bool
  | .sysLoad i => decide (i.toNat ≤ 6)
  | .sysSave i => decide (i.toNat ≤ 6)
  | .mLoad _ i => decide (i.toNat ≤ 13)
  | .mSave _ i => decide (i.toNat ≤ 13)
  | .nop | .hostRd _ | .hostWr _ _ | .tick | .reset | .setOc _ _
  | .mStep _ | .sysStep | .tickEnd
  | .p1DirSanitize | .p2CmdClamp | .p3ResetError | .p4ModeSelect | .p5HandleOnOff
  | .p5HandleRamp | .p5HandleIdle | .p6Duty | .p6Actuate | .p8Status | .p9Writeback
  | .rampInit | .msReset | .retarget | .update | .checkError | .faultLatch | .clearError
  | .controlMode _ _ | .enable _ _ | .commandSpeed _ _ | .actualSpeed _ _ | .direction _ _
  | .maxSpeed _ _ | .minSpeed _ _ | .vmax _ _ | .amax _ _ | .jmax _ _ | .maxAcc _ _
  | .maxDec _ _ | .statusWord _ _ | .errorCode _ _
  | .deviceId _ | .firmwareVersion _ | .systemStatus _ | .systemError _
  | .resetErrorCommand _ | .configBaudrate _ | .configParity _ => true

end Sys2Proof
end

