-- ==== Sys2Proof/Decode.lean ====
section
/-! DEFINITION. The decoders of the encoding spaces (R90), total on every word and rejecting by name,
and after them the encoder, written from the same tables (R91, R92, R95, R96, R97, R98).  A word of
fewer than 32 bits stands in the low bits of a 32-bit container whose other bits are 0. -/

namespace Sys2Proof

/-- Why a word spells no operation (R94, R96). -/
inductive DecodeError where
  /-- A stimulus word whose OP is 0x6..0xF (R94). -/
  | reservedOp
  /-- A field that R92, R95 or R98 wants to be 0 is not 0. -/
  | nonzeroField
  /-- A micro-op word whose CLASS is 0x0 or 0x8..0xF (R96). -/
  | reservedClass
  /-- A micro-op word whose IDX lies outside its view (R96). -/
  | reservedIndex
  /-- A SUBOP8 code that R97 does not list. -/
  | unknownSubop
  /-- A field offset that is not part of the view (R98: 14 and 15 of a MotorView, 7 of the SystemView). -/
  | notInView
deriving DecidableEq, Repr

/-- The AXIS bit (R91, R95): 0 selects axis 1, 1 selects axis 2. -/
def axisOfBit (b : Nat) : Axis := if b = 0 then .one else .two

/-- The AXIS bit of an axis (R93: k = AXIS + 1). -/
def Axis.bit : Axis → Nat
  | .one => 0
  | .two => 1

/-- The stimulus word (R91, R92, R93, R94). -/
def decodeStim (w : Word32) : Except DecodeError Instr :=
  let n := w.toNat
  let rsv := field n 27 17
  let lvl := field n 16 16
  let addr := field n 15 8
  let data := field n 7 0
  match field n 31 28 with
  | 0 => if rsv = 0 ∧ lvl = 0 ∧ addr = 0 ∧ data = 0 then .ok .nop else .error .nonzeroField
  | 1 => if rsv = 0 ∧ lvl = 0 ∧ data = 0 then .ok (.hostRd (BitVec.ofNat 8 addr)) else .error .nonzeroField
  | 2 =>
    if rsv = 0 ∧ lvl = 0 then .ok (.hostWr (BitVec.ofNat 8 addr) (BitVec.ofNat 8 data))
    else .error .nonzeroField
  | 3 => if rsv = 0 ∧ lvl = 0 ∧ addr = 0 ∧ data = 0 then .ok .tick else .error .nonzeroField
  | 4 => if rsv = 0 ∧ lvl = 0 ∧ addr = 0 ∧ data = 0 then .ok .reset else .error .nonzeroField
  | 5 =>
    if rsv = 0 ∧ field n 15 9 = 0 ∧ data = 0 then .ok (.setOc (axisOfBit (field n 8 8)) (lvl == 1))
    else .error .nonzeroField
  | _ => .error .reservedOp

/-- A micro-op of one view byte: its index must lie in the view (R96). -/
def decodeIndexed (last idx : Nat) (mk : BitVec 4 → Instr) : Except DecodeError Instr :=
  if idx ≤ last then .ok (mk (BitVec.ofNat 4 idx)) else .error .reservedIndex

/-- The micro-op word (R95, R96), in the low 16 bits of the container. -/
def decodeUop (w : Word32) : Except DecodeError Instr :=
  let n := w.toNat
  let axis := field n 8 8
  let idx := field n 3 0
  if field n 31 16 = 0 ∧ field n 11 9 = 0 ∧ field n 7 4 = 0 then
    match field n 15 12 with
    | 1 => if axis = 0 then decodeIndexed 6 idx .sysLoad else .error .nonzeroField
    | 2 => decodeIndexed 13 idx (.mLoad (axisOfBit axis))
    | 3 => if idx = 0 then .ok (.mStep (axisOfBit axis)) else .error .nonzeroField
    | 4 => decodeIndexed 13 idx (.mSave (axisOfBit axis))
    | 5 => if axis = 0 ∧ idx = 0 then .ok .sysStep else .error .nonzeroField
    | 6 => if axis = 0 then decodeIndexed 6 idx .sysSave else .error .nonzeroField
    | 7 => if axis = 0 ∧ idx = 0 then .ok .tickEnd else .error .nonzeroField
    | _ => .error .reservedClass
  else .error .nonzeroField

/-- The sub-operation code (R97). -/
def decodeSubop (w : Word32) : Except DecodeError Instr :=
  match w.toNat with
  | 0xA1 => .ok .p1DirSanitize
  | 0xA2 => .ok .p2CmdClamp
  | 0xA3 => .ok .p3ResetError
  | 0xA4 => .ok .p4ModeSelect
  | 0xA5 => .ok .p5HandleOnOff
  | 0xA6 => .ok .p5HandleRamp
  | 0xA7 => .ok .p5HandleIdle
  | 0xA8 => .ok .p6Duty
  | 0xA9 => .ok .p6Actuate
  | 0xAA => .ok .p8Status
  | 0xAB => .ok .p9Writeback
  | 0xB0 => .ok .rampInit
  | 0xB1 => .ok .msReset
  | 0xB2 => .ok .retarget
  | 0xB3 => .ok .update
  | 0xC0 => .ok .checkError
  | 0xC1 => .ok .faultLatch
  | 0xC2 => .ok .clearError
  | _ => .error .unknownSubop

/-- The access of a field word: bit 9 is the write strobe and bits 23..16 the byte written, which is
0 for a read (log entry 3). -/
def decodeAccess (n : Nat) : Except DecodeError Access :=
  if field n 9 9 = 1 then .ok (.wr (BitVec.ofNat 8 (field n 23 16)))
  else if field n 23 16 = 0 then .ok .rd
  else .error .nonzeroField

/-- The MotorView field at an offset (R98, table of R33). -/
def motorFieldAt (off : Nat) (k : Axis) (acc : Access) : Except DecodeError Instr :=
  match off with
  | 0 => .ok (.controlMode k acc)
  | 1 => .ok (.enable k acc)
  | 2 => .ok (.commandSpeed k acc)
  | 3 => .ok (.actualSpeed k acc)
  | 4 => .ok (.direction k acc)
  | 5 => .ok (.maxSpeed k acc)
  | 6 => .ok (.minSpeed k acc)
  | 7 => .ok (.vmax k acc)
  | 8 => .ok (.amax k acc)
  | 9 => .ok (.jmax k acc)
  | 10 => .ok (.maxAcc k acc)
  | 11 => .ok (.maxDec k acc)
  | 12 => .ok (.statusWord k acc)
  | 13 => .ok (.errorCode k acc)
  | _ => .error .notInView

/-- The SystemView field at an offset (R98, table of R37). -/
def systemFieldAt (off : Nat) (acc : Access) : Except DecodeError Instr :=
  match off with
  | 0 => .ok (.deviceId acc)
  | 1 => .ok (.firmwareVersion acc)
  | 2 => .ok (.systemStatus acc)
  | 3 => .ok (.systemError acc)
  | 4 => .ok (.resetErrorCommand acc)
  | 5 => .ok (.configBaudrate acc)
  | 6 => .ok (.configParity acc)
  | _ => .error .notInView

/-- A MotorView field word: bits 3..0 the offset of R98, bit 8 the axis, and the access (log entry 3). -/
def decodeMreg (w : Word32) : Except DecodeError Instr :=
  let n := w.toNat
  if field n 31 24 = 0 ∧ field n 15 10 = 0 ∧ field n 7 4 = 0 then
    match decodeAccess n with
    | .ok acc => motorFieldAt (field n 3 0) (axisOfBit (field n 8 8)) acc
    | .error e => .error e
  else .error .nonzeroField

/-- A SystemView field word: bits 2..0 the offset of R98, and the access (log entry 3). -/
def decodeSreg (w : Word32) : Except DecodeError Instr :=
  let n := w.toNat
  if field n 31 24 = 0 ∧ field n 15 10 = 0 ∧ field n 8 3 = 0 then
    match decodeAccess n with
    | .ok acc => systemFieldAt (field n 2 0) acc
    | .error e => .error e
  else .error .nonzeroField

/-- The decoder of each encoding space (R90). -/
def decode (f : Format) (w : Word32) : Except DecodeError Instr :=
  match f with
  | .stim32 => decodeStim w
  | .uop16 => decodeUop w
  | .subop8 => decodeSubop w
  | .mreg => decodeMreg w
  | .sreg => decodeSreg w

/-- The encoding space in which a table row of `nbits` bits is read.  A SUBOP8 code, an MREG offset and
an SREG offset all fill one byte: a byte that is a code of R97 is read as SUBOP8, any other as an MREG
offset, which R98 tests first (log entry 4). -/
def tableFormat (nbits w : Nat) : Format :=
  if 16 < nbits then .stim32
  else if 8 < nbits then .uop16
  else if nbits ≤ 3 then .sreg
  else if nbits ≤ 4 then .mreg
  else if 14 ≤ w then .subop8
  else .mreg

/-- The instruction the decoder reads from a table row's bits. -/
def decodeTableWord (nbits w : Nat) : Option Instr :=
  match decode (tableFormat nbits w) (BitVec.ofNat 32 w) with
  | .ok i => some i
  | .error _ => none

/-- The bits of an access in a field word (log entry 3). -/
def Access.bits : Access → Nat
  | .rd => 0
  | .wr d => d.toNat * 2 ^ 16 + 2 ^ 9

/-- A MotorView field word. -/
def mregWord (off : Nat) (k : Axis) (acc : Access) : Nat := acc.bits + k.bit * 2 ^ 8 + off

/-- A SystemView field word. -/
def sregWord (off : Nat) (acc : Access) : Nat := acc.bits + off

/-- A micro-op word: CLASS in bits 15..12, AXIS in bit 8, IDX in bits 3..0 (R95). -/
def uopWord (cls axis idx : Nat) : Nat := cls * 2 ^ 12 + axis * 2 ^ 8 + idx

/-- The word of an operation as a number, in its encoding space. -/
def encodeNat : Instr → Nat
  | .nop => 0x00000000
  | .hostRd a => 0x10000000 + a.toNat * 2 ^ 8
  | .hostWr a d => 0x20000000 + a.toNat * 2 ^ 8 + d.toNat
  | .tick => 0x30000000
  | .reset => 0x40000000
  | .setOc k l => 0x50000000 + l.toNat * 2 ^ 16 + k.bit * 2 ^ 8
  | .sysLoad i => uopWord 1 0 i.toNat
  | .mLoad k i => uopWord 2 k.bit i.toNat
  | .mStep k => uopWord 3 k.bit 0
  | .mSave k i => uopWord 4 k.bit i.toNat
  | .sysStep => uopWord 5 0 0
  | .sysSave i => uopWord 6 0 i.toNat
  | .tickEnd => uopWord 7 0 0
  | .p1DirSanitize => 0xA1
  | .p2CmdClamp => 0xA2
  | .p3ResetError => 0xA3
  | .p4ModeSelect => 0xA4
  | .p5HandleOnOff => 0xA5
  | .p5HandleRamp => 0xA6
  | .p5HandleIdle => 0xA7
  | .p6Duty => 0xA8
  | .p6Actuate => 0xA9
  | .p8Status => 0xAA
  | .p9Writeback => 0xAB
  | .rampInit => 0xB0
  | .msReset => 0xB1
  | .retarget => 0xB2
  | .update => 0xB3
  | .checkError => 0xC0
  | .faultLatch => 0xC1
  | .clearError => 0xC2
  | .controlMode k acc => mregWord 0 k acc
  | .enable k acc => mregWord 1 k acc
  | .commandSpeed k acc => mregWord 2 k acc
  | .actualSpeed k acc => mregWord 3 k acc
  | .direction k acc => mregWord 4 k acc
  | .maxSpeed k acc => mregWord 5 k acc
  | .minSpeed k acc => mregWord 6 k acc
  | .vmax k acc => mregWord 7 k acc
  | .amax k acc => mregWord 8 k acc
  | .jmax k acc => mregWord 9 k acc
  | .maxAcc k acc => mregWord 10 k acc
  | .maxDec k acc => mregWord 11 k acc
  | .statusWord k acc => mregWord 12 k acc
  | .errorCode k acc => mregWord 13 k acc
  | .deviceId acc => sregWord 0 acc
  | .firmwareVersion acc => sregWord 1 acc
  | .systemStatus acc => sregWord 2 acc
  | .systemError acc => sregWord 3 acc
  | .resetErrorCommand acc => sregWord 4 acc
  | .configBaudrate acc => sregWord 5 acc
  | .configParity acc => sregWord 6 acc

/-- The word of an operation, in its encoding space (R91, R92, R95..R98). -/
def encode (i : Instr) : Word32 := BitVec.ofNat 32 (encodeNat i)

end Sys2Proof
end

