-- ==== Sys2Proof/Machine/Sequencer.lean ====
section
/-! DEFINITION. The tick sequencer and the register view mapper (R130 to R138): TICK, the loads and saves of the
views, SYS_STEP, TICK_END, and the order of the micro-ops. -/

namespace Sys2Proof.Machine

/-- The micro-op word of a micro-op (R95). -/
def uopOf (i : Instr) : Uop16 := (encode i).setWidth 16

/-- `first(SEQ)` (R130). -/
def firstUop : Uop16 := uopOf (.sysLoad 0)

/-- The micro-op after a micro-op of SEQ, `none` after the last (R130, R137); an operation that is no
micro-op has no successor. -/
def nextInstr : Instr → Option Instr
  | .sysLoad i => if i.toNat < 6 then some (.sysLoad (i + 1)) else some (.mLoad .one 0)
  | .mLoad k i => if i.toNat < 13 then some (.mLoad k (i + 1)) else some (.mStep k)
  | .mStep k => some (.mSave k 0)
  | .mSave k i =>
    if i.toNat < 13 then some (.mSave k (i + 1))
    else match k with
      | .one => some (.mLoad .two 0)
      | .two => some .sysStep
  | .sysStep => some (.sysSave 0)
  | .sysSave i => if i.toNat < 6 then some (.sysSave (i + 1)) else some .tickEnd
  | .tickEnd => none
  | .nop | .hostRd _ | .hostWr _ _ | .tick | .reset | .setOc _ _
  | .p1DirSanitize | .p2CmdClamp | .p3ResetError | .p4ModeSelect | .p5HandleOnOff
  | .p5HandleRamp | .p5HandleIdle | .p6Duty | .p6Actuate | .p8Status | .p9Writeback
  | .rampInit | .msReset | .retarget | .update | .checkError | .faultLatch | .clearError
  | .controlMode _ _ | .enable _ _ | .commandSpeed _ _ | .actualSpeed _ _ | .direction _ _
  | .maxSpeed _ _ | .minSpeed _ _ | .vmax _ _ | .amax _ _ | .jmax _ _ | .maxAcc _ _
  | .maxDec _ _ | .statusWord _ _ | .errorCode _ _
  | .deviceId _ | .firmwareVersion _ | .systemStatus _ | .systemError _
  | .resetErrorCommand _ | .configBaudrate _ | .configParity _ => none

/-- `next(seq)` (R130): IDLE after TICK_END. -/
def nextUop (i : Instr) : Option Uop16 := (nextInstr i).map uopOf

/-- TICK (R130): held while a tick is in progress, else the first micro-op is next. -/
def State.tick (s : State) : State :=
  match s.seq with
  | some _ => { s with heldTicks := s.heldTicks + 1 }
  | none => { s with seq := some firstUop }

/-- TICK (R130). -/
def execTick (s : State) : Host.Outcome State Fault Refusal := .next s.tick

/-- SYS_LOAD(i) on the state (R131). -/
def State.sysLoad (s : State) (i : Nat) : State :=
  let b := s.byteAt (s.cfg.sysAddr i)
  { s with
    sv := s.sv.set i b
    rr := if i = 4 then resetRequest b else s.rr
    draws := s.drawsAfter (s.cfg.sysAddr i) }

/-- SYS_LOAD(i) (R131); an index outside 0..6 is reserved (R96). -/
def execSysLoad (i : BitVec 4) (s : State) : Host.Outcome State Fault Refusal :=
  if i.toNat ≤ 6 then .next (s.sysLoad i.toNat) else .refused .reservedUop

/-- M_LOAD(k, i) on the state (R132). -/
def State.mLoad (s : State) (k : Axis) (i : Nat) : State :=
  { s with
    mv := s.mv.set i (s.byteAt (s.cfg.motorAddr k i))
    draws := s.drawsAfter (s.cfg.motorAddr k i) }

/-- M_LOAD(k, i) (R132); an index outside 0..13 is reserved (R96). -/
def execMLoad (k : Axis) (i : BitVec 4) (s : State) : Host.Outcome State Fault Refusal :=
  if i.toNat ≤ 13 then .next (s.mLoad k i.toNat) else .refused .reservedUop

/-- M_SAVE(k, i) on the state (R134). -/
def State.mSave (s : State) (k : Axis) (i : Nat) : State :=
  s.store (s.cfg.motorAddr k i) (trunc8 (s.mv.get i).toNat)

/-- M_SAVE(k, i) (R134); an index outside 0..13 is reserved (R96). -/
def execMSave (k : Axis) (i : BitVec 4) (s : State) : Host.Outcome State Fault Refusal :=
  if i.toNat ≤ 13 then .next (s.mSave k i.toNat) else .refused .reservedUop

/-- SYS_STEP on the state (R135). -/
def State.sysStep (s : State) : State :=
  { s with
    sv.devid := s.cfg.deviceId
    sv.fwver := s.cfg.fwVersion
    sv.sysst := systemStatusOf s.ax1.s s.ax2.s
    sv.syserr := systemErrorOf s.ax1.s s.ax2.s
    sv.rsterr := consumedRequest s.rr s.sv.rsterr }

/-- SYS_STEP (R135). -/
def execSysStep (s : State) : Host.Outcome State Fault Refusal := .next s.sysStep

/-- SYS_SAVE(i) on the state (R136). -/
def State.sysSave (s : State) (i : Nat) : State :=
  s.store (s.cfg.sysAddr i) (trunc8 (s.sv.get i).toNat)

/-- SYS_SAVE(i) (R136); an index outside 0..6 is reserved (R96). -/
def execSysSave (i : BitVec 4) (s : State) : Host.Outcome State Fault Refusal :=
  if i.toNat ≤ 6 then .next (s.sysSave i.toNat) else .refused .reservedUop

/-- TICK_END (R137). -/
def execTickEnd (s : State) : Host.Outcome State Fault Refusal := .next { s with seq := none }

end Sys2Proof.Machine
end

