-- ==== Sys2Proof/Machine/Dispatch.lean ====
section
/-! DEFINITION. The dispatch: one arm per operation, each one call of its meaning. -/

namespace Sys2Proof.Machine

/-- The meaning of each operation. -/
def exec (i : Instr) (s : State) : Host.Outcome State Fault Refusal :=
  match i with
  | .nop => Sys2Proof.Machine.execNop s
  | .hostRd addr => Sys2Proof.Machine.execHostRd addr s
  | .hostWr addr data => Sys2Proof.Machine.execHostWr addr data s
  | .tick => Sys2Proof.Machine.execTick s
  | .reset => Sys2Proof.Machine.execReset s
  | .setOc k level => Sys2Proof.Machine.execSetOc k level s
  | .sysLoad idx => Sys2Proof.Machine.execSysLoad idx s
  | .mLoad k idx => Sys2Proof.Machine.execMLoad k idx s
  | .mStep k => Sys2Proof.Machine.execMStep k s
  | .mSave k idx => Sys2Proof.Machine.execMSave k idx s
  | .sysStep => Sys2Proof.Machine.execSysStep s
  | .sysSave idx => Sys2Proof.Machine.execSysSave idx s
  | .tickEnd => Sys2Proof.Machine.execTickEnd s
  | .p1DirSanitize => Sys2Proof.Machine.execP1DirSanitize s
  | .p2CmdClamp => Sys2Proof.Machine.execP2CmdClamp s
  | .p3ResetError => Sys2Proof.Machine.execP3ResetError s
  | .p4ModeSelect => Sys2Proof.Machine.execP4ModeSelect s
  | .p5HandleOnOff => Sys2Proof.Machine.execP5HandleOnOff s
  | .p5HandleRamp => Sys2Proof.Machine.execP5HandleRamp s
  | .p5HandleIdle => Sys2Proof.Machine.execP5HandleIdle s
  | .p6Duty => Sys2Proof.Machine.execP6Duty s
  | .p6Actuate => Sys2Proof.Machine.execP6Actuate s
  | .p8Status => Sys2Proof.Machine.execP8Status s
  | .p9Writeback => Sys2Proof.Machine.execP9Writeback s
  | .rampInit => Sys2Proof.Machine.execRampInit s
  | .msReset => Sys2Proof.Machine.execMsReset s
  | .retarget => Sys2Proof.Machine.execRetarget s
  | .update => Sys2Proof.Machine.execUpdate s
  | .checkError => Sys2Proof.Machine.execCheckError s
  | .faultLatch => Sys2Proof.Machine.execFaultLatch s
  | .clearError => Sys2Proof.Machine.execClearError s
  | .controlMode k acc => Sys2Proof.Machine.execControlMode k acc s
  | .enable k acc => Sys2Proof.Machine.execEnable k acc s
  | .commandSpeed k acc => Sys2Proof.Machine.execCommandSpeed k acc s
  | .actualSpeed k acc => Sys2Proof.Machine.execActualSpeed k acc s
  | .direction k acc => Sys2Proof.Machine.execDirection k acc s
  | .maxSpeed k acc => Sys2Proof.Machine.execMaxSpeed k acc s
  | .minSpeed k acc => Sys2Proof.Machine.execMinSpeed k acc s
  | .vmax k acc => Sys2Proof.Machine.execVmax k acc s
  | .amax k acc => Sys2Proof.Machine.execAmax k acc s
  | .jmax k acc => Sys2Proof.Machine.execJmax k acc s
  | .maxAcc k acc => Sys2Proof.Machine.execMaxAcc k acc s
  | .maxDec k acc => Sys2Proof.Machine.execMaxDec k acc s
  | .statusWord k acc => Sys2Proof.Machine.execStatusWord k acc s
  | .errorCode k acc => Sys2Proof.Machine.execErrorCode k acc s
  | .deviceId acc => Sys2Proof.Machine.execDeviceId acc s
  | .firmwareVersion acc => Sys2Proof.Machine.execFirmwareVersion acc s
  | .systemStatus acc => Sys2Proof.Machine.execSystemStatus acc s
  | .systemError acc => Sys2Proof.Machine.execSystemError acc s
  | .resetErrorCommand acc => Sys2Proof.Machine.execResetErrorCommand acc s
  | .configBaudrate acc => Sys2Proof.Machine.execConfigBaudrate acc s
  | .configParity acc => Sys2Proof.Machine.execConfigParity acc s

end Sys2Proof.Machine
end

