-- ==== Sys2Proof/Machine/Agents.lean ====
section
/-! DEFINITION. The agents (R18) and how one step of one of them is taken: the host and the tick timer through
stimulus words or port levels, the core sequencer through `seq` (R130). -/

namespace Sys2Proof.Machine

/-- `pwm_stb_k` is a pulse of one step (R43, R190): both strobes are low when a step begins. -/
def State.quiet (s : State) : State := { s with ax1.out.stb := false, ax2.out.stb := false }

/-- The operation of a word, or the refusal of a word that spells none (R94, R96). -/
def runWord (f : Format) (w : Word32) (r : Refusal) (s : State) : Host.Outcome State Fault Refusal :=
  match decode f w with
  | .ok i => exec i s
  | .error _ => .refused r

/-- `seq <- next(seq)` after a micro-op (R130). -/
def advance (i : Instr) (o : Host.Outcome State Fault Refusal) : Host.Outcome State Fault Refusal :=
  match o with
  | .next t => .next { t with seq := nextUop i }
  | .fault r => .fault r
  | .refused r => .refused r

/-- The step of the tick agent that R137 enables again: a held TICK starts once `seq` is IDLE (R130,
R255); with none held the block is idle and its state is retained (R227, R245). -/
def State.startHeld (s : State) : State :=
  match s.heldTicks with
  | 0 => s
  | n + 1 => { s with heldTicks := n, seq := some firstUop }

/-- The micro-op that `seq` holds (R95, R96). -/
def fetchUop (w : Uop16) : Except DecodeError Instr := decode .uop16 (w.setWidth 32)

/-- A step of the core sequencer (R130): perform the micro-op of `seq` and advance; with `seq` IDLE, a held
TICK starts. -/
def coreStep (s : State) : Host.Outcome State Fault Refusal :=
  match s.seq with
  | some w =>
    match fetchUop w with
    | .ok i => advance i (exec i s)
    | .error _ => .refused .reservedUop
  | none => .next s.startHeld

/-- Two strobes that R94 does not allow in one cycle (I6). -/
def Pins.conflict (p : Pins) : Bool := (p.hpWe && p.hpRe) || (p.rst && (p.tick || p.hpWe || p.hpRe))

/-- Runs the second operation on the next state of the first. -/
def andThen (o : Host.Outcome State Fault Refusal) (f : State → Host.Outcome State Fault Refusal) :
    Host.Outcome State Fault Refusal :=
  match o with
  | .next t => f t
  | .fault r => .fault r
  | .refused r => .refused r

/-- One cycle of the input ports (R43): the overcurrent levels are taken (R123), then the operation of each
asserted strobe is performed.  A TICK and a host access in one cycle touch different state, so their order
does not matter. -/
def portCycle (p : Pins) (s : State) : Host.Outcome State Fault Refusal :=
  if p.conflict then .refused .strobeConflict
  else
    let s := (s.setOvercurrent .one p.oc1).setOvercurrent .two p.oc2
    let o := if p.rst then exec .reset s else .next s
    let o := if p.hpWe then andThen o (exec (.hostWr p.hpAddr p.hpWdata)) else o
    let o := if p.hpRe then andThen o (exec (.hostRd p.hpAddr)) else o
    if p.tick then andThen o (exec .tick) else o

/-- One step of the agent that the schedule names (R18). -/
def agentStep (ev : Event) (s : State) : Host.Outcome State Fault Refusal :=
  match ev with
  | .stim w => runWord .stim32 w .invalidStimulus s
  | .pins p => portCycle p s
  | .mreg w => runWord .mreg w .notAField s
  | .sreg w => runWord .sreg w .notAField s
  | .subop w => runWord .subop8 w .unknownSubop s
  | .core => coreStep s

/-- One step of the block: the next scheduled agent takes its step; with nothing scheduled the core
sequencer runs.  A configuration that is not well formed has no meaning (R8). -/
def stepBlock (s : State) : Host.Outcome State Fault Refusal :=
  if s.cfg.WF then
    match s.sched with
    | [] => coreStep s.quiet
    | ev :: rest => agentStep ev { s.quiet with sched := rest }
  else .refused .illFormedConfig

/-- The state in which the next step runs the operation of a table row's bits: a micro-op word goes into
`seq` and the core takes the next step, any other word is the next thing an agent does. -/
def placeWord (s : State) (nbits w : Nat) : State :=
  match tableFormat nbits w with
  | .stim32 => { s with sched := .stim (BitVec.ofNat 32 w) :: s.sched }
  | .uop16 => { s with seq := some (BitVec.ofNat 16 w), sched := .core :: s.sched }
  | .subop8 => { s with sched := .subop (BitVec.ofNat 32 w) :: s.sched }
  | .mreg => { s with sched := .mreg (BitVec.ofNat 32 w) :: s.sched }
  | .sreg => { s with sched := .sreg (BitVec.ofNat 32 w) :: s.sched }

end Sys2Proof.Machine
end

