-- ==== Sys2Proof/Machine/Step.lean ====
section
/-! DEFINITION. The step of the block and the placing of an operation where the next step finds it. -/

namespace Sys2Proof.Machine

/-- One step of the block: `stepBlock` says what it does (R18, R130). -/
def step (s : State) : Host.Outcome State Fault Refusal := stepBlock s

/-- The state whose next step runs the operation of a table row's bits (log entry 4). -/
def State.withFetchWord (s : State) (nbits w : Nat) : State := placeWord s nbits w

end Sys2Proof.Machine
end

