-- ==== Sys2Proof/Machine/Assembly.lean ====
section
/-! DEFINITION. The assembler syntax (R102) and the pseudo-instructions (R103): a pseudo-instruction stands
for stimulus operations, at the addresses of the configuration. -/

namespace Sys2Proof.Machine

/-- The pseudo-instructions of R103.  A field is given by its offset in the view. -/
inductive Pseudo where
  | wrm (k : Axis) (off : Fin 14) (d : Byte)
  | rdm (k : Axis) (off : Fin 14)
  | wrs (off : Fin 7) (d : Byte)
  | rds (off : Fin 7)
  | enable (k : Axis)
  | disable (k : Axis)
  | modeOnOff (k : Axis)
  | modeRamp (k : Axis)
  | speed (k : Axis) (n : Byte)
  | dir (k : Axis) (d : Direction)
  | clrerr
  | ticks (n : Nat)
deriving DecidableEq, Repr

/-- The expansion column of R103. -/
def Pseudo.expand (c : Cfg) : Pseudo → List Instr
  | .wrm k off d => [.hostWr (c.motorAddr k off) d]
  | .rdm k off => [.hostRd (c.motorAddr k off)]
  | .wrs off d => [.hostWr (c.sysAddr off) d]
  | .rds off => [.hostRd (c.sysAddr off)]
  | .enable k => [.hostWr (c.motorAddr k 1) 1]
  | .disable k => [.hostWr (c.motorAddr k 1) 0]
  | .modeOnOff k => [.hostWr (c.motorAddr k 0) 1]
  | .modeRamp k => [.hostWr (c.motorAddr k 0) 2]
  | .speed k n => [.hostWr (c.motorAddr k 2) n]
  | .dir k d => [.hostWr (c.motorAddr k 4) d.byte]
  | .clrerr => [.hostWr (c.sysAddr 4) 1]
  | .ticks n => List.replicate n .tick

/-- A stimulus program as the schedule of its words (R102). -/
def assemble (prog : List Instr) : List Event := prog.map fun i => .stim (encode i)

end Sys2Proof.Machine
end

