-- ==== Sys2Proof/Safety.lean ====
section
/-! DEFINITION. What the statements call a legal state of the block: the invariants that its steps keep, and the
words in which the statements speak of a run. -/

namespace Sys2Proof.Machine

/-- The operation a step performs answers a next state with a property. -/
def NextWith (o : Host.Outcome State Fault Refusal) (p : State → Prop) : Prop := ∃ t, o = .next t ∧ p t

/-- A sub-operation performed alone, which no agent of the block does (R97 "not decoded by hardware"). -/
def Event.isProbe : Event → Bool
  | .subop _ => true
  | .stim _ => false
  | .pins _ => false
  | .mreg _ => false
  | .sreg _ => false
  | .core => false

/-- Every cell of the three spans holds a byte (R131 "span cells are never ⊥"). -/
def State.SpansWritten (s : State) : Prop :=
  (∀ i, i < 7 → (s.cell (s.cfg.sysAddr i)).isSome) ∧
    ∀ k i, i < 14 → (s.cell (s.cfg.motorAddr k i)).isSome

/-- What holds of an axis between two micro-ops: the code is one of R211 and is not 0 exactly while the axis
is FAULTED (R49, R211, R214, R218); the stall counter is 0 outside the active states (R191); `done` is 0
and the MotionState is at rest outside RAMP_ACTIVE (R153, R186, R188); the `done_k` output shows `done`
(R43); the duty is at most 100 (R44); Status_Word bits 7..4 are 0 (R36). -/
structure AxisState.Coherent (dist : F32) (a : AxisState) : Prop where
  err_code : a.s.err.toNat ≤ 4
  err_iff : a.s.mst = .faulted ↔ a.s.err ≠ 0
  stall_idle : a.s.mst.active = false → a.s.stallCnt = 0
  done_ramp : a.s.mst ≠ .rampActive → a.s.done = false
  rest_unless_ramp : a.s.mst ≠ .rampActive → a.m = Motion.atRest dist
  done_out : a.out.done = a.s.done
  duty_le : a.out.duty.toNat ≤ 100
  sw_high : a.s.sw.toNat < 16

/-- What holds of the block between two steps of its agents: the configuration is well formed, the bank is in
its canonical form and its spans are written, both axes are coherent, every OutputPWM call has a duty of
at most 100, `seq` holds a micro-op or IDLE (R95), and no sub-operation is scheduled alone. -/
structure State.Coherent (s : State) : Prop where
  cfg_wf : s.cfg.WF = true
  bank_wf : Bank.wf s.bank = true
  spans : s.SpansWritten
  ax_one : s.ax1.Coherent s.cfg.distance1
  ax_two : s.ax2.Coherent s.cfg.distance2
  calls_le : ∀ c ∈ s.calls, c.duty.toNat ≤ 100
  seq_uop : ∀ w, s.seq = some w → ∃ i, fetchUop w = .ok i
  no_probe : ∀ ev ∈ s.sched, ev.isProbe = false

/-- `−bound ≤ x ≤ bound` in the IEEE comparison; it excludes NaN. -/
def F32Within (bound x : F32) : Prop := F32.le (F32.neg bound) x = true ∧ F32.le x bound = true

/-- The bounds of R167 on the MotionState of an axis in RAMP_ACTIVE: velocity, acceleration and jerk within
the limits latched by RAMP_INIT, which are finite and not negative, with a tick period greater than 0. -/
structure Motion.Bounded (m : Motion) : Prop where
  vm_ok : m.vm.isFinite = true ∧ F32.le F32.zero m.vm = true
  am_ok : m.am.isFinite = true ∧ F32.le F32.zero m.am = true
  jm_ok : m.jm.isFinite = true ∧ F32.le F32.zero m.jm = true
  dt_ok : F32.positive m.dt = true
  v_le : F32Within m.vm m.v
  a_le : F32Within m.am m.a
  j_le : F32Within m.jm m.j

/-- R167 for both axes, in a state whose configuration is well formed and whose agents schedule no
sub-operation alone. -/
structure State.MotionBounded (s : State) : Prop where
  cfg_wf : s.cfg.WF = true
  no_probe : ∀ ev ∈ s.sched, ev.isProbe = false
  one_ok : s.ax1.s.mst = .rampActive → s.ax1.m.Bounded
  two_ok : s.ax2.s.mst = .rampActive → s.ax2.m.Bounded

/-- The fourteen micro-ops that load, or that save, a whole MotorView. -/
def motorBytes (mk : BitVec 4 → Instr) : List Instr :=
  (List.range 14).map fun i => mk (BitVec.ofNat 4 i)

/-- The state after the operations of a list, while each answers a next state. -/
def execAll : List Instr → State → Host.Outcome State Fault Refusal
  | [], s => .next s
  | i :: is, s =>
    match exec i s with
    | .next t => execAll is t
    | .fault r => .fault r
    | .refused r => .refused r

end Sys2Proof.Machine
end

