-- ==== Sys2Proof/Certificates/Slice0/Obligations.lean ====
section
/-! DEFINITION. The statements for the provers. Each docstring says which rule of spec/ it states, or that it
speaks of the model's own choice, with the log entry. -/

open Sys2Proof Sys2Proof.Machine

/-! ## Encodings -/

/-- Every well-formed operation, with every operand at every value, is read back from its word.  The
operand bits of the MREG and SREG words are the model's (log entry 3). -/
def Obligations.DecodeOfEncode : Prop :=
  ∀ i : Instr, i.WF = true → decode i.format (encode i) = .ok i

/-- No two words of one encoding space spell the same operation: a word that decodes is the word of the
operation it decodes to, which is well formed and belongs to that space. -/
def Obligations.DecodedWordIsItsEncoding : Prop :=
  ∀ (f : Format) (w : Word32) (i : Instr),
    decode f w = .ok i → i.format = f ∧ i.WF = true ∧ encode i = w

/-- R94: a stimulus word with OP 0x6..0xF, or with a must-be-zero field of R92 that is not zero, spells no
operation, and the step that meets it is refused. -/
def Obligations.ReservedStimulusIsRefused : Prop :=
  ∀ (s : State) (w : Word32) (rest : List Event),
    s.cfg.WF = true → s.sched = .stim w :: rest →
    (6 ≤ field w.toNat 31 28 ∨ field w.toNat 27 17 ≠ 0 ∨
      (field w.toNat 31 28 ≠ 5 ∧ field w.toNat 16 16 ≠ 0) ∨
      (field w.toNat 31 28 ≠ 2 ∧ field w.toNat 7 0 ≠ 0) ∨
      (field w.toNat 31 28 ∉ [1, 2, 5] ∧ field w.toNat 15 8 ≠ 0) ∨
      (field w.toNat 31 28 = 5 ∧ field w.toNat 15 9 ≠ 0)) →
    step s = .refused .invalidStimulus

/-- R96: a reserved micro-op word in `seq` has no meaning, and the core step that meets it is refused. -/
def Obligations.ReservedMicroOpIsRefused : Prop :=
  ∀ (s : State) (w : Uop16) (rest : List Event),
    s.cfg.WF = true → (s.sched = [] ∨ s.sched = .core :: rest) → s.seq = some w →
    (field w.toNat 15 12 = 0 ∨ 8 ≤ field w.toNat 15 12 ∨ field w.toNat 11 9 ≠ 0 ∨
      field w.toNat 7 4 ≠ 0 ∨
      (field w.toNat 15 12 ∈ [1, 6] ∧ 7 ≤ field w.toNat 3 0) ∨
      (field w.toNat 15 12 ∈ [2, 4] ∧ 14 ≤ field w.toNat 3 0) ∨
      (field w.toNat 15 12 ∈ [3, 5, 7] ∧ field w.toNat 3 0 ≠ 0) ∨
      (field w.toNat 15 12 ∈ [1, 5, 6, 7] ∧ field w.toNat 8 8 ≠ 0)) →
    step s = .refused .reservedUop

/-- Words written out from the spec's encodings decode to the operations it gives: eight words of STIM32 (R92,
R102), UOP16 (R96) and SUBOP8 (R97), and the MREG offset 9 (R98).  That a byte is read as SUBOP8 or as an
MREG offset by its value is log entry 4; that the offset alone is a read of axis 1 is log entry 3. -/
def Obligations.SpecWordsDecode : Prop :=
  decodeTableWord 32 0x20001101 = some (.hostWr 0x11 1) ∧
  decodeTableWord 32 0x10001500 = some (.hostRd 0x15) ∧
  decodeTableWord 32 0x50010100 = some (.setOc .two true) ∧
  decodeTableWord 32 0x30000000 = some .tick ∧
  decodeTableWord 16 0x210D = some (.mLoad .two 13) ∧
  decodeTableWord 16 0x4003 = some (.mSave .one 3) ∧
  decodeTableWord 16 0x6006 = some (.sysSave 6) ∧
  decodeTableWord 8 0xB3 = some .update ∧
  decodeTableWord 8 0x09 = some (.jmax .one .rd)

/-- R98: under a well-formed configuration each view offset is the one name of its address, and an address
in no span is a free cell. -/
def Obligations.AddressDecodeNamesEachField : Prop :=
  ∀ c : Cfg, c.WF = true →
    (∀ k i, i < 14 → decodeAddr c (c.motorAddr k i) = .motor k i) ∧
    (∀ i, i < 7 → decodeAddr c (c.sysAddr i) = .system i) ∧
    (∀ x : Byte, (∀ k i, i < 14 → x ≠ c.motorAddr k i) → (∀ i, i < 7 → x ≠ c.sysAddr i) →
      decodeAddr c x = .free)

/-! ## Steps of the agents -/

/-- A step runs the decoded operation: with a word of the host or the tick timer scheduled next, the step is
`exec` of its operation on the state without that word and with the strobes low.  The schedule is the model's
(log entry 1), so are the field words (log entry 3) and the strobe's length (log entry 15). -/
def Obligations.StepRunsScheduledWord : Prop :=
  ∀ (s : State) (w : Word32) (rest : List Event) (i : Instr), s.cfg.WF = true →
    ((s.sched = .stim w :: rest ∧ decode .stim32 w = .ok i) ∨
      (s.sched = .mreg w :: rest ∧ decode .mreg w = .ok i) ∨
      (s.sched = .sreg w :: rest ∧ decode .sreg w = .ok i) ∨
      (s.sched = .subop w :: rest ∧ decode .subop8 w = .ok i)) →
    step s = exec i { s with sched := rest, ax1.out.stb := false, ax2.out.stb := false }

/-- The core step of R130: when the core sequencer takes the step, it performs the micro-op that `seq` holds
and `seq` moves to the next word of SEQ, IDLE after TICK_END: the next index of the same class and axis, or
at the last index the first word of what follows.  That the core steps when nothing is scheduled is log
entry 1, the low strobes are log entry 15. -/
def Obligations.StepRunsMicroOp : Prop :=
  ∀ (s : State) (w : Uop16) (rest : List Event) (i : Instr), s.cfg.WF = true → s.seq = some w →
    decode .uop16 (w.setWidth 32) = .ok i →
    ((s.sched = [] ∧ rest = []) ∨ s.sched = .core :: rest) →
    let following : Option Uop16 :=
      if w = 0x7000 then none
      else if w = 0x1006 then some 0x2000
      else if w = 0x200D then some 0x3000
      else if w = 0x3000 then some 0x4000
      else if w = 0x400D then some 0x2100
      else if w = 0x210D then some 0x3100
      else if w = 0x3100 then some 0x4100
      else if w = 0x410D then some 0x5000
      else if w = 0x5000 then some 0x6000
      else if w = 0x6006 then some 0x7000
      else some (w + 1)
    ∃ t, exec i { s with sched := rest, ax1.out.stb := false, ax2.out.stb := false } = .next t ∧
      step s = .next { t with seq := following }

/-- R130, R260: from its first micro-op a tick runs in 74 core steps to IDLE, whatever the state, and makes two
OutputPWM calls, of axis 1 and then of axis 2; after n steps, n below 74, `seq` holds word n of SEQ.
Nothing is scheduled meanwhile (log entry 1), and a held TICK stays held (log entry 7). -/
def Obligations.TickRunsInSeventyFourSteps : Prop :=
  let span (first : Uop16) (n : Nat) : List Uop16 := (List.range n).map fun i => first + BitVec.ofNat 16 i
  let words : List Uop16 :=
    span 0x1000 7 ++ span 0x2000 14 ++ [0x3000] ++ span 0x4000 14 ++
      span 0x2100 14 ++ [0x3100] ++ span 0x4100 14 ++ [0x5000] ++ span 0x6000 7 ++ [0x7000]
  ∀ s : State, s.cfg.WF = true → s.sched = [] → s.seq = some 0x1000 →
    (∃ t : State, Sys2Proof.core.run 74 s = .next t ∧ t.seq = none ∧ t.busy = false ∧ t.sched = [] ∧
      (∃ c d, t.calls = s.calls ++ [c, d] ∧ c.axis = .one ∧ d.axis = .two) ∧
      t.heldTicks = s.heldTicks ∧ t.cfg = s.cfg) ∧
    ∀ n, n < 74 → ∃ t : State,
      Sys2Proof.core.run n s = .next t ∧ t.busy = true ∧ t.seq.isSome = true ∧ t.seq = words[n]?

/-- R227, R245: with nothing scheduled, `seq` IDLE and no TICK held, a step leaves the state as it is, but
for the pulse outputs, which are low (log entries 1 and 15). -/
def Obligations.IdleBlockRetainsItsState : Prop :=
  ∀ s : State, s.cfg.WF = true → s.sched = [] → s.seq = none → s.heldTicks = 0 →
    step s = .next { s with ax1.out.stb := false, ax2.out.stb := false }

/-- R8: a configuration that is not well formed is refused. -/
def Obligations.IllFormedConfigurationIsRefused : Prop :=
  ∀ s : State, s.cfg.WF = false → step s = .refused .illFormedConfig

/-- One cycle of the input ports (R43).  R94: asserting `hp_we` and `hp_re`, or `rst` with another strobe, is
refused.  Any other cycle takes both overcurrent levels and performs the operation of each asserted strobe:
RESET (R240) alone, or the host access (R121, R122) and then TICK (R130), either or none of them.  A port
cycle as one scheduled event, and its order, are the model's (log entry 14); the low strobes are log entry
15. -/
def Obligations.ConflictingStrobesAreRefused : Prop :=
  ∀ (s : State) (p : Pins) (rest : List Event), s.cfg.WF = true → s.sched = .pins p :: rest →
    let s₀ : State := { s with
      sched := rest, ax1.out.stb := false, ax2.out.stb := false, ax1.oc := p.oc1, ax2.oc := p.oc2 }
    let conflict : Prop := (p.hpWe = true ∧ p.hpRe = true) ∨
      (p.rst = true ∧ (p.tick = true ∨ p.hpWe = true ∨ p.hpRe = true))
    (conflict → step s = .refused .strobeConflict) ∧
    (¬ conflict → p.rst = true → step s = exec .reset s₀) ∧
    (¬ conflict → p.rst = false → ∃ u,
      (p.hpWe = true → exec (.hostWr p.hpAddr p.hpWdata) s₀ = .next u) ∧
      (p.hpRe = true → exec (.hostRd p.hpAddr) s₀ = .next u) ∧
      (p.hpWe = false → p.hpRe = false → u = s₀) ∧
      (p.tick = true → step s = exec .tick u) ∧ (p.tick = false → step s = .next u))

/-- The configuration is constant (R7): no step changes it. -/
def Obligations.StepKeepsTheConfiguration : Prop :=
  ∀ s t : State, step s = .next t → t.cfg = s.cfg

/-! ## Host operations -/

/-- R121: HOST_RD puts the byte of the cell on `hp_rdata`; a cell holding ⊥ gives a freshly drawn byte
(the free value of log entry 11); the bank and everything else is unchanged. -/
def Obligations.HostReadReturnsTheCell : Prop :=
  ∀ (s : State) (a : Byte),
    (∀ b, s.cell a = some b → exec (.hostRd a) s = .next { s with hpRdata := b }) ∧
    (s.cell a = none →
      exec (.hostRd a) s = .next { s with hpRdata := Config.freeByte s.draws, draws := s.draws + 1 })

/-- R122: HOST_WR stores the byte in its cell; every other cell and everything else is unchanged. -/
def Obligations.HostWriteStoresOneCell : Prop :=
  ∀ (s : State) (a d : Byte), NextWith (exec (.hostWr a d) s) fun t =>
    t.cell a = some d ∧ (∀ x, x ≠ a → t.cell x = s.cell x) ∧ t = { s with bank := t.bank }

/-- R120, R123: NOP changes nothing; SET_OC sets the overcurrent level of its axis and nothing else. -/
def Obligations.NopAndSetOvercurrentFrames : Prop :=
  ∀ (s : State) (l : Bool), exec .nop s = .next s ∧
    exec (.setOc .one l) s = .next { s with ax1.oc := l } ∧
    exec (.setOc .two l) s = .next { s with ax2.oc := l }

/-- The TICK of R130: from IDLE it makes the first micro-op the next one; while a tick is in progress it is
held; TICK_END (R137) makes the sequencer IDLE.  How the model records a held TICK is log entry 7. -/
def Obligations.TickStartsIsHeldAndEnds : Prop :=
  ∀ s : State, exec .tickEnd s = .next { s with seq := none } ∧
    (s.seq = none → exec .tick s = .next { s with seq := some 0x1000 }) ∧
    (s.busy = true → exec .tick s = .next { s with heldTicks := s.heldTicks + 1 })

/-- A held TICK starts after TICK_END, one at a time (R130, R137, R255; log entry 7). -/
def Obligations.HeldTickStartsWhenIdle : Prop :=
  ∀ (s : State) (n : Nat), s.cfg.WF = true → s.sched = [] → s.seq = none → s.heldTicks = n + 1 →
    step s = .next { s with
      seq := some 0x1000, heldTicks := n, ax1.out.stb := false, ax2.out.stb := false }

/-- R240, R242, R243, R244: RESET leaves the spans at their reset bytes and every other cell ⊥, both axes at
their reset registers, MotionState at rest, the outputs 0, `seq` IDLE; the overcurrent levels and the
output history are kept.  That every free cell is ⊥ is the model's choice where R240 and I2 also allow a
device to keep its byte (log entry 12); that `hp_rdata`, `SV`, `MV`, `rr`, the locals and the schedule are
kept too is the model's choice (log entry 6). -/
def Obligations.ResetEstablishesTheResetState : Prop :=
  ∀ s : State, s.cfg.WF = true → NextWith (exec .reset s) fun t =>
    (∀ k, (List.range 14).map (fun i => t.cell (s.cfg.motorAddr k i)) =
      [1, 0, 0, 0, 0, s.cfg.defMaxSpeed, s.cfg.defMinSpeed, s.cfg.defVmax, s.cfg.defAmax,
        s.cfg.defJmax, s.cfg.defMaxAcc, s.cfg.defMaxDec, 0, 0].map some) ∧
    (List.range 7).map (fun i => t.cell (s.cfg.sysAddr i)) =
      [s.cfg.deviceId, s.cfg.fwVersion, 0, 0, 0, s.cfg.defBaud, s.cfg.defParity].map some ∧
    (∀ x, decodeAddr s.cfg x = .free → t.cell x = none) ∧
    (∀ k, (t.ax k).s = ⟨.disabled, 0, .idle, 0, 0, false, 0⟩ ∧
      (t.ax k).m = ⟨.zero, .zero, .zero, .zero, .zero, s.cfg.distance k, .zero, .zero, .zero, .zero⟩ ∧
      (t.ax k).out.duty = 0 ∧ (t.ax k).out.dir = .idle ∧ (t.ax k).out.done = false ∧
      (t.ax k).oc = (s.ax k).oc) ∧
    t.seq = none ∧ t.busy = false ∧
    t = { s with bank := t.bank, ax1 := t.ax1, ax2 := t.ax2, seq := none, heldTicks := 0 }

/-- The bytes and registers after model launch with the defaults are those of V-R1 (R47, R247). -/
def Obligations.ResetStateHasTheDefaultViews : Prop :=
  (∀ k, (List.range 14).map (fun i => State.reset.cell (State.reset.cfg.motorAddr k i)) =
    [1, 0, 0, 0, 0, 100, 0, 100, 50, 200, 50, 50, 0, 0].map some) ∧
  (List.range 7).map (fun i => State.reset.cell (State.reset.cfg.sysAddr i)) =
    [1, 1, 0, 0, 0, 0, 0].map some ∧
  State.reset.cell 0x1E = none ∧ State.reset.seq = none ∧ State.reset.calls = [] ∧
  ∀ k, (State.reset.ax k).oc = false ∧ (State.reset.ax k).s.mst = .disabled ∧
    (State.reset.ax k).m.dist = .inf false

/-! ## Loads and saves -/

/-- R131: SYS_LOAD(i) copies its cell into the image, and at i = 4 bit 0 of the byte into `rr`. -/
def Obligations.SysLoadCopiesOneByte : Prop :=
  ∀ (s : State) (i : BitVec 4) (b : Byte), i.toNat ≤ 6 → s.cell (s.cfg.sysAddr i.toNat) = some b →
    NextWith (exec (.sysLoad i) s) fun t =>
      t.sv.get i.toNat = b ∧ (∀ j, j < 7 → j ≠ i.toNat → t.sv.get j = s.sv.get j) ∧
      t.rr = (if i.toNat = 4 then b.getLsbD 0 else s.rr) ∧
      t = { s with sv := t.sv, rr := t.rr }

/-- R132: M_LOAD(k, i) copies its cell into the image and changes nothing else. -/
def Obligations.MotorLoadCopiesOneByte : Prop :=
  ∀ (s : State) (k : Axis) (i : BitVec 4) (b : Byte), i.toNat ≤ 13 →
    s.cell (s.cfg.motorAddr k i.toNat) = some b →
    NextWith (exec (.mLoad k i) s) fun t =>
      t.mv.get i.toNat = b ∧ (∀ j, j < 14 → j ≠ i.toNat → t.mv.get j = s.mv.get j) ∧
      t = { s with mv := t.mv }

/-- R134: M_SAVE(k, i) stores byte i of the image at `BASE_Mk + i`; every other cell and everything else is
unchanged. -/
def Obligations.MotorSaveStoresOneByte : Prop :=
  ∀ (s : State) (k : Axis) (i : BitVec 4), i.toNat ≤ 13 →
    NextWith (exec (.mSave k i) s) fun t =>
      t.cell (s.cfg.motorAddr k i.toNat) = some (s.mv.get i.toNat) ∧
      (∀ x, x ≠ s.cfg.motorAddr k i.toNat → t.cell x = s.cell x) ∧ t = { s with bank := t.bank }

/-- R136: SYS_SAVE(i) stores byte i of the image at `BASE_SYS + i`; every other cell and everything else is
unchanged. -/
def Obligations.SysSaveStoresOneByte : Prop :=
  ∀ (s : State) (i : BitVec 4), i.toNat ≤ 6 →
    NextWith (exec (.sysSave i) s) fun t =>
      t.cell (s.cfg.sysAddr i.toNat) = some (s.sv.get i.toNat) ∧
      (∀ x, x ≠ s.cfg.sysAddr i.toNat → t.cell x = s.cell x) ∧ t = { s with bank := t.bank }

/-- R96: a load or a save whose index lies outside its view is refused. -/
def Obligations.ReservedIndexIsRefused : Prop :=
  ∀ (s : State) (k : Axis) (i : BitVec 4),
    (7 ≤ i.toNat → exec (.sysLoad i) s = .refused .reservedUop ∧
      exec (.sysSave i) s = .refused .reservedUop) ∧
    (14 ≤ i.toNat → exec (.mLoad k i) s = .refused .reservedUop ∧
      exec (.mSave k i) s = .refused .reservedUop)

/-- R135, R39, R40: SYS_STEP replaces the SystemView image: the identity constants, System_Status from the
two axes, System_Error, the consumed or passed-on request, and the passed-through transport bytes. -/
def Obligations.SysStepComputesTheSystemView : Prop :=
  ∀ s : State, NextWith (exec .sysStep s) fun t =>
    t.sv.devid = s.cfg.deviceId ∧ t.sv.fwver = s.cfg.fwVersion ∧
    (t.sv.sysst.getLsbD 0 = true ↔ s.ax1.s.mst = .faulted) ∧
    (t.sv.sysst.getLsbD 1 = true ↔ s.ax2.s.mst = .faulted) ∧
    t.sv.sysst.getLsbD 2 = s.ax1.s.sw.getLsbD 0 ∧ t.sv.sysst.getLsbD 3 = s.ax2.s.sw.getLsbD 0 ∧
    t.sv.sysst.toNat < 16 ∧
    t.sv.syserr = (if s.ax1.s.err ≠ 0 then s.ax1.s.err else s.ax2.s.err) ∧
    t.sv.rsterr = (if s.rr = true then 0 else s.sv.rsterr) ∧
    t.sv.baud = s.sv.baud ∧ t.sv.parity = s.sv.parity ∧ t = { s with sv := t.sv }

/-- R66: loading a MotorView and saving it with no field changed reproduces the bank exactly. -/
def Obligations.LoadThenSaveKeepsTheBank : Prop :=
  ∀ (s : State) (k : Axis), s.cfg.WF = true → Bank.wf s.bank = true → s.SpansWritten →
    NextWith (execAll (motorBytes (.mLoad k) ++ motorBytes (.mSave k)) s) fun t =>
      t.bank = s.bank ∧ (∀ i, i < 14 → some (t.mv.get i) = s.cell (s.cfg.motorAddr k i)) ∧
      t = { s with mv := t.mv }

/-- R69, R250, R254: a host write to a cell of a MotorView or of the SystemView, followed by the save of that
cell, has no effect on the state. -/
def Obligations.HostWriteBeforeSaveIsLost : Prop :=
  ∀ (s : State) (i : BitVec 4) (d : Byte), Bank.wf s.bank = true →
    (∀ k : Axis, i.toNat ≤ 13 → NextWith (exec (.mSave k i) s) fun t =>
      execAll [.hostWr (s.cfg.motorAddr k i.toNat) d, .mSave k i] s = .next t) ∧
    (i.toNat ≤ 6 → NextWith (exec (.sysSave i) s) fun t =>
      execAll [.hostWr (s.cfg.sysAddr i.toNat) d, .sysSave i] s = .next t)

/-! ## The phases of M_STEP

A sub-operation works on the axis and the locals that the field `loc` names (log entry 2). -/

/-- R181: P1 takes a valid Direction and ignores any other byte. -/
def Obligations.DirSanitizeKeepsLastValid : Prop :=
  ∀ s : State, NextWith (exec .p1DirSanitize s) fun t =>
    (s.mv.dir = 0 → (t.ax s.loc.axis).s.dirEff = .idle) ∧
    (s.mv.dir = 1 → (t.ax s.loc.axis).s.dirEff = .forward) ∧
    (s.mv.dir = 2 → (t.ax s.loc.axis).s.dirEff = .reverse) ∧
    (3 ≤ s.mv.dir.toNat → (t.ax s.loc.axis).s.dirEff = (s.ax s.loc.axis).s.dirEff) ∧
    t = s.setAx s.loc.axis
      { s.ax s.loc.axis with s.dirEff := (t.ax s.loc.axis).s.dirEff }

/-- R182: P2 clamps the command to [Min_Speed, Max_Speed], with Max_Speed winning, and flags an empty
range. -/
def Obligations.CmdClampBoundsTheCommand : Prop :=
  ∀ s : State, NextWith (exec .p2CmdClamp s) fun t =>
    t.loc.cmdEff.toNat = min (max s.mv.cmd.toNat s.mv.mins.toNat) s.mv.maxs.toNat ∧
    (t.loc.rangeBad = true ↔ s.mv.maxs.toNat < s.mv.mins.toNat) ∧
    t = { s with loc.cmdEff := t.loc.cmdEff, loc.rangeBad := t.loc.rangeBad }

/-- R183, R218: P3 clears a FAULTED axis exactly when the tick has a request and Enable is not 1; else it
changes nothing. -/
def Obligations.ResetErrorClearsOnlyWhenDisabled : Prop :=
  ∀ s : State,
    ((s.ax s.loc.axis).s.mst = .faulted ∧ s.rr = true ∧ s.mv.en ≠ 1 →
      exec .p3ResetError s = .next (s.setAx s.loc.axis { s.ax s.loc.axis with
        s.err := 0, s.mst := .disabled, s.stallCnt := 0 })) ∧
    (¬ ((s.ax s.loc.axis).s.mst = .faulted ∧ s.rr = true ∧ s.mv.en ≠ 1) →
      exec .p3ResetError s = .next s)

/-- R184, R185: P4 follows the (Enable, Control_Mode) pair of the image, runs the entry actions of a change,
and latches CONFIG when RAMP_ACTIVE is entered with a zero limit.  The sub-operation also records the local
`entered` of R180 (log entry 2). -/
def Obligations.ModeSelectFollowsEnableAndMode : Prop :=
  ∀ (s : State) (new : Mst),
    new = (if s.mv.en = 1 ∧ s.mv.cm = 1 then .onOffActive
      else if s.mv.en = 1 ∧ s.mv.cm = 2 then .rampActive else .disabled) →
    NextWith (exec .p4ModeSelect s) fun t =>
      let k := s.loc.axis
      let a := s.ax k
      let b := t.ax k
      ((a.s.mst = .faulted ∨ new = a.s.mst) → b = a ∧ t.loc = { s.loc with entered := false }) ∧
      (a.s.mst ≠ .faulted → new ≠ a.s.mst →
        b.s.stallCnt = 0 ∧ b.s.done = false ∧ b.m.dist = s.cfg.distance k ∧ t.loc.entered = true ∧
        b.out = a.out ∧ b.oc = a.oc ∧ b.s.dirEff = a.s.dirEff ∧ b.s.prevCmd = a.s.prevCmd ∧
        b.s.sw = a.s.sw ∧
        (new ≠ .rampActive → b.s.mst = new ∧ b.s.err = a.s.err ∧
          b.m = Motion.atRest (s.cfg.distance k)) ∧
        (new = .rampActive → s.mv.vmax ≠ 0 → s.mv.amax ≠ 0 → s.mv.jmax ≠ 0 →
          b.s.mst = .rampActive ∧ b.s.err = a.s.err ∧ b.m = Motion.rampStart s.cfg k s.mv) ∧
        (new = .rampActive → (s.mv.vmax = 0 ∨ s.mv.amax = 0 ∨ s.mv.jmax = 0) →
          b.s.mst = .faulted ∧ b.s.err = 4 ∧ b.m = Motion.atRest (s.cfg.distance k))) ∧
      t = { s.setAx k b with loc.entered := t.loc.entered, loc.ok := t.loc.ok }

/-- R186, R188: HANDLE_ONOFF reports the effective command, HANDLE_IDLE reports 0; both clear `done`. -/
def Obligations.SimpleHandlersSetTheSpeed : Prop :=
  ∀ s : State,
    exec .p5HandleOnOff s = .next { s.setAx s.loc.axis { s.ax s.loc.axis with s.done := false } with
      loc.speed := s.loc.cmdEff } ∧
    exec .p5HandleIdle s = .next { s.setAx s.loc.axis { s.ax s.loc.axis with s.done := false } with
      loc.speed := 0 }

/-- R187: HANDLE_RAMP restarts the position when the command changes materially outside the tick of entry,
runs UPDATE toward the requested velocity, and reports its speed, capped at Max_Speed. -/
def Obligations.HandleRampAdvancesTheProfile : Prop :=
  ∀ s : State, NextWith (exec .p5HandleRamp s) fun t =>
    let k := s.loc.axis
    let a := s.ax k
    let change := max s.loc.cmdEff.toNat a.s.prevCmd.toNat - min s.loc.cmdEff.toNat a.s.prevCmd.toNat
    let m := if s.loc.entered = false ∧ s.cfg.retargetDelta ≤ change then { a.m with pos := .zero } else a.m
    (t.ax k).m = m.update (F32.mul (F32.ofNat s.loc.cmdEff.toNat) s.cfg.kv) ∧
    (t.ax k).s.done = (t.ax k).m.arrived s.cfg ∧
    t.loc.speed.toNat = min (min (F32.floorHalves (F32.div (F32.abs (t.ax k).m.v) s.cfg.kv) 1) 255)
      s.mv.maxs.toNat ∧
    t = { s.setAx k { a with m := (t.ax k).m, s.done := (t.ax k).s.done } with
      loc.vreq := t.loc.vreq, loc.updDone := t.loc.updDone, loc.speed := t.loc.speed }

/-- R189: the duty is the speed in percent of Max_Speed, at most 100, in an active state with Max_Speed not
0, else 0. -/
def Obligations.DutyIsThePercentOfMaxSpeed : Prop :=
  ∀ s : State, NextWith (exec .p6Duty s) fun t =>
    (((s.ax s.loc.axis).s.mst = .onOffActive ∨ (s.ax s.loc.axis).s.mst = .rampActive) → s.mv.maxs ≠ 0 →
      t.loc.duty.toNat = min 100 (s.loc.speed.toNat * 100 / s.mv.maxs.toNat)) ∧
    (((s.ax s.loc.axis).s.mst = .disabled ∨ (s.ax s.loc.axis).s.mst = .faulted ∨ s.mv.maxs = 0) →
      t.loc.duty = 0) ∧
    t = { s with loc.duty := t.loc.duty }

/-- R190: ACTUATE makes exactly one OutputPWM call with the duty and the effective direction. -/
def Obligations.ActuateMakesOneCall : Prop :=
  ∀ s : State, NextWith (exec .p6Actuate s) fun t =>
    t.calls = s.calls ++ [⟨s.loc.axis, s.loc.duty, (s.ax s.loc.axis).s.dirEff⟩] ∧
    (t.ax s.loc.axis).out = { (s.ax s.loc.axis).out with
      duty := s.loc.duty, dir := (s.ax s.loc.axis).s.dirEff, stb := true } ∧
    t = { s.setAx s.loc.axis { s.ax s.loc.axis with out := (t.ax s.loc.axis).out } with calls := t.calls }

/-- R36, R192: the Status_Word bits. -/
def Obligations.StatusWordReportsTheAxis : Prop :=
  ∀ s : State, NextWith (exec .p8Status s) fun t =>
    let k := s.loc.axis
    let m := (s.ax k).s.mst
    (t.loc.sw.getLsbD 0 = true ↔ s.loc.speed ≠ 0) ∧
    (t.loc.sw.getLsbD 1 = true ↔ m = .onOffActive ∨ m = .rampActive) ∧
    (t.loc.sw.getLsbD 2 = true ↔ (m = .onOffActive ∨ m = .rampActive) ∧ s.loc.speed = s.loc.cmdEff) ∧
    (t.loc.sw.getLsbD 3 = true ↔ m = .faulted) ∧
    t.loc.sw.toNat < 16 ∧ (t.ax k).s.sw = t.loc.sw ∧
    t = { s.setAx k { s.ax k with s.sw := t.loc.sw } with loc.sw := t.loc.sw }

/-- R193, R34: WRITEBACK replaces Actual_Speed, Status_Word and Error_Code of the image, keeps the host-owned
bytes, and shows `done`. -/
def Obligations.WritebackKeepsHostBytes : Prop :=
  ∀ s : State, exec .p9Writeback s = .next { s.setAx s.loc.axis
      { s.ax s.loc.axis with out.done := (s.ax s.loc.axis).s.done } with
    mv.as := s.loc.speed, mv.sw := s.loc.sw, mv.ec := (s.ax s.loc.axis).s.err }

/-! ## The Motion Profile Generator -/

/-- R151, R152: RAMP_INIT puts the profile at rest, latches the limits and the tick period, and succeeds
exactly when no limit is 0. -/
def Obligations.RampInitLatchesTheLimits : Prop :=
  ∀ s : State, NextWith (exec .rampInit s) fun t =>
    let k := s.loc.axis
    let m := (t.ax k).m
    m.vt = .zero ∧ m.v = .zero ∧ m.a = .zero ∧ m.j = .zero ∧ m.pos = .zero ∧
    m.dist = s.cfg.distance k ∧ m.dt = s.cfg.dt ∧
    m.vm = F32.canon (F32.mul (F32.ofNat s.mv.vmax.toNat) s.cfg.kv) ∧
    m.am = F32.canon (F32.mul (F32.ofNat s.mv.amax.toNat) s.cfg.ka) ∧
    m.jm = F32.canon (F32.mul (F32.ofNat s.mv.jmax.toNat) s.cfg.kj) ∧
    (t.ax k).s.done = false ∧
    (t.loc.ok = true ↔ s.mv.vmax ≠ 0 ∧ s.mv.amax ≠ 0 ∧ s.mv.jmax ≠ 0) ∧
    t = { s.setAx k { s.ax k with m := m, s.done := false } with loc.ok := t.loc.ok }

/-- R153, R154: MS_RESET puts the profile at rest; RETARGET restarts only the position integral. -/
def Obligations.ProfileResets : Prop :=
  ∀ s : State,
    exec .msReset s = .next (s.setAx s.loc.axis { s.ax s.loc.axis with
      m := ⟨.zero, .zero, .zero, .zero, .zero, s.cfg.distance s.loc.axis, .zero, .zero, .zero, .zero⟩
      s.done := false }) ∧
    exec .retarget s = .next (s.setAx s.loc.axis { s.ax s.loc.axis with m.pos := .zero })

/-- UPDATE (R155) answers a next state in every state; it changes only `vt`, `v`, `a`, `j` and `pos` of the
axis and its own result, which is the done test of R164. -/
def Obligations.UpdateCompletesWithItsFrame : Prop :=
  ∀ s : State, NextWith (exec .update s) fun t =>
    let k := s.loc.axis
    let m := (t.ax k).m
    (t.loc.updDone = true ↔
      F32.le (F32.abs (F32.sub m.vt m.v)) s.cfg.epsV = true ∧
        (m.dist = .inf false ∨ F32.le m.dist (F32.abs m.pos) = true)) ∧
    m = { (s.ax k).m with vt := m.vt, v := m.v, a := m.a, j := m.j, pos := m.pos } ∧
    t = { s.setAx k { s.ax k with m := m } with loc.updDone := t.loc.updDone }

/-- R156 to R162, spelt out: the new `vt`, `a`, `v`, `j` and `pos` of UPDATE, from the old ones and the local
`vreq`, in the order and with the roundings of steps U1 to U10.  `gain` is the brake gain of R158, `pick` the
choice of R159 in the direction of the error, `a` the acceleration of U4. -/
def Obligations.UpdateFollowsItsSteps : Prop :=
  ∀ s : State, NextWith (exec .update s) fun t =>
    let m := (s.ax s.loc.axis).m
    let n := (t.ax s.loc.axis).m
    let vt := F32.fmin (F32.fmax s.loc.vreq (F32.neg m.vm)) m.vm
    let e := F32.sub vt m.v
    let dA := F32.mul m.jm m.dt
    let dV := F32.mul dA m.dt
    let gain (c : F32) : F32 :=
      let k := F32.floor (F32.div (F32.abs c) dA)
      let g := F32.mul m.dt (F32.sub (F32.mul (F32.ofNat k) (F32.abs c))
        (F32.mul dA (F32.ofNat (k * (k + 1) / 2))))
      if F32.le F32.zero c = true then g else F32.neg g
    let stops (v ts c : F32) : Prop := F32.le (F32.add (F32.add v (F32.mul c m.dt)) (gain c)) ts = true
    let pick (v a ts c : F32) : Prop :=
      (stops v ts (F32.fmin m.am (F32.add a dA)) → c = F32.fmin m.am (F32.add a dA)) ∧
      (¬ stops v ts (F32.fmin m.am (F32.add a dA)) → stops v ts a → c = a) ∧
      (¬ stops v ts (F32.fmin m.am (F32.add a dA)) → ¬ stops v ts a →
        c = F32.fmax (F32.neg m.am) (F32.sub a dA))
    ∃ a a1 v1 : F32,
      (F32.feq e F32.zero = true → F32.le (F32.abs m.a) dA = true → a = .zero) ∧
      (F32.feq e F32.zero = true → F32.le (F32.abs m.a) dA = false → F32.lt F32.zero m.a = true →
        a = F32.sub m.a dA) ∧
      (F32.feq e F32.zero = true → F32.le (F32.abs m.a) dA = false → F32.lt F32.zero m.a = false →
        a = F32.add m.a dA) ∧
      (F32.feq e F32.zero = false → F32.lt F32.zero e = true → pick m.v m.a vt a) ∧
      (F32.feq e F32.zero = false → F32.lt F32.zero e = false →
        ∃ c, pick (F32.neg m.v) (F32.neg m.a) (F32.neg vt) c ∧ a = F32.neg c) ∧
      (let vr := F32.add m.v (F32.mul a m.dt)
       let snap := (F32.le F32.zero e = true ∧ F32.le vt vr = true) ∨
        (F32.le e F32.zero = true ∧ F32.le vr vt = true) ∨ F32.le (F32.abs (F32.sub vt vr)) dV = true
       (snap → v1 = vt) ∧ (¬ snap → v1 = vr) ∧
       (snap → F32.le (F32.abs m.a) dA = true → a1 = .zero) ∧
       (¬ (snap ∧ F32.le (F32.abs m.a) dA = true) → a1 = a)) ∧
      (let w := F32.fmin m.vm (F32.fmax (F32.neg m.vm) v1)
       n = { m with
        vt := F32.canon vt
        a := F32.canon a1
        v := F32.canon w
        j := F32.canon (F32.fmin m.jm (F32.fmax (F32.neg m.jm) (F32.div (F32.sub a1 m.a) m.dt)))
        pos := F32.canon (F32.add m.pos (F32.mul w m.dt)) })

/-- The worked example of R155: the first UPDATE of the default profile from rest toward 100. -/
def Obligations.UpdateFirstTickExample : Prop :=
  let m := (Motion.rampStart Cfg.default .one (MotorView.initial Cfg.default)).update (F32.ofNat 100)
  m.vt = F32.ofNat 100 ∧ m.a = F32.ofBits 0x3E4CCCCD ∧ m.v = F32.ofBits 0x3951B718 ∧
    m.j = F32.ofBits 0x43480000 ∧ m.pos = F32.ofBits 0x3456BF96 ∧ m.arrived Cfg.default = false

/-- R160, R157: on target (`v` equals the clamped request, within ±VM) the velocity stays on the target, and
an acceleration within one tick's jerk of 0 becomes 0. -/
def Obligations.UpdateHoldsAVelocityOnTarget : Prop :=
  ∀ (m : Motion) (vreq : F32),
    m.v.isFinite = true → m.a.isFinite = true → m.dt.isFinite = true → m.jm.isFinite = true →
    F32Within m.vm m.v → F32.feq (targetVelocity m vreq) m.v = true →
    F32.feq (m.update vreq).v m.v = true ∧ F32.feq (m.update vreq).vt m.v = true ∧
    (F32.le (F32.abs m.a) (F32.mul m.jm m.dt) = true → (m.update vreq).a = .zero)

/-- Every rounded result is a nearest binary32 number, the even one of two that are equally near (R13
roundTiesToEven; binary32 itself is D10): no magnitude is nearer to the exact value `num / den`. -/
def Obligations.RoundingIsToNearestEven : Prop :=
  ∀ (num den : Nat), 0 < den → ∀ b : Nat, b ≠ F32.roundMag num den →
    let r := (F32.units (F32.roundMag num den) * den : Int)
    let x := (F32.units b * den : Int)
    |r - num| < |x - num| ∨ (|r - num| = |x - num| ∧ F32.roundMag num den % 2 = 0)

/-! ## The Fault Monitor -/

/-- R212, R213, R215: CHECK_ERROR counts a tick off the effective command, saturating, and latches the first
true condition in the order overcurrent, range, stall; with none it only counts. -/
def Obligations.CheckErrorLatchesTheFirstCause : Prop :=
  ∀ (s : State) (cnt : Nat),
    cnt = (if s.loc.speed = s.loc.cmdEff then 0
      else min ((s.ax s.loc.axis).s.stallCnt.toNat + 1) (2 ^ 32 - 1)) →
    NextWith (exec .checkError s) fun t =>
      let k := s.loc.axis
      let a := s.ax k
      let latched (code : Byte) : AxisState := { a with
        s.err := code, s.mst := .faulted, s.stallCnt := 0, s.done := false
        m := ⟨.zero, .zero, .zero, .zero, .zero, s.cfg.distance k, .zero, .zero, .zero, .zero⟩ }
      (a.oc = true → t.ax k = latched 3) ∧
      (a.oc = false → s.loc.rangeBad = true → t.ax k = latched 1) ∧
      (a.oc = false → s.loc.rangeBad = false → s.cfg.stallTicks ≤ cnt → t.ax k = latched 2) ∧
      (a.oc = false → s.loc.rangeBad = false → cnt < s.cfg.stallTicks →
        t.ax k = { a with s.stallCnt := BitVec.ofNat 32 cnt }) ∧
      t = { s.setAx k (t.ax k) with loc.code := t.loc.code }

/-- R211, R214: FAULT_LATCH writes the code, the state FAULTED and the stall counter, and puts the profile at
rest. -/
def Obligations.FaultLatchEntersFaulted : Prop :=
  ∀ s : State,
    exec .faultLatch s = .next (s.setAx s.loc.axis { s.ax s.loc.axis with
      s.err := (match s.loc.code with | .range => 1 | .stall => 2 | .overcurrent => 3 | .config => 4)
      s.mst := .faulted
      s.stallCnt := 0
      s.done := false
      m := ⟨.zero, .zero, .zero, .zero, .zero, s.cfg.distance s.loc.axis, .zero, .zero, .zero, .zero⟩ })

/-- R218: CLEAR_ERROR returns the axis to DISABLED with no code. -/
def Obligations.ClearErrorReturnsToDisabled : Prop :=
  ∀ s : State, exec .clearError s = .next (s.setAx s.loc.axis { s.ax s.loc.axis with
    s.err := 0, s.mst := .disabled, s.stallCnt := 0 })

/-! ## M_STEP -/

/-- The from, condition and to columns of R194's table for one M_STEP, and what the tick reports on the way.
`speed` is the Actual_Speed it writes back and `cnt` the stall counter that its fault check compares.  For
an axis that stays in or enters RAMP_ACTIVE, `m` is the profile after UPDATE (R187, R165), which gives the
speed (R166) and the duty (R189) of this tick; a fault that the check then latches changes neither (R190
before R191, R212, R253), leaves RUNNING set for a speed other than 0 (R192), and puts the profile at
rest.  The CONFIG fault, latched before the handler, reports speed and duty 0 (R185, R188). -/
def Obligations.MStepFollowsTheTransitionTable : Prop :=
  ∀ (s : State) (k : Axis), s.cfg.WF = true → NextWith (exec (.mStep k) s) fun t =>
    let a := (s.ax k).s
    let b := (t.ax k).s
    let cmd := min (max s.mv.cmd.toNat s.mv.mins.toNat) s.mv.maxs.toNat
    let cnt := if t.mv.as.toNat = cmd then 0
      else min ((if a.mst = .rampActive then a.stallCnt.toNat else 0) + 1) (2 ^ 32 - 1)
    let rest := Motion.atRest (s.cfg.distance k)
    (a.mst = .faulted → s.rr = true → s.mv.en ≠ 1 → b.mst = .disabled ∧ b.err = 0) ∧
    (a.mst = .faulted → ¬ (s.rr = true ∧ s.mv.en ≠ 1) → b.mst = .faulted ∧ b.err = a.err) ∧
    (a.mst ≠ .faulted → (s.mv.en ≠ 1 ∨ (s.mv.cm ≠ 1 ∧ s.mv.cm ≠ 2)) →
      b.mst = .disabled ∧ b.err = a.err) ∧
    (a.mst ≠ .faulted → s.mv.en = 1 → s.mv.cm = 1 →
      if (s.ax k).oc = true then b.mst = .faulted ∧ b.err = 3
      else if s.mv.maxs.toNat < s.mv.mins.toNat then b.mst = .faulted ∧ b.err = 1
      else b.mst = .onOffActive ∧ b.err = a.err) ∧
    (a.mst ≠ .faulted → a.mst ≠ .rampActive → s.mv.en = 1 → s.mv.cm = 2 →
      (s.mv.vmax = 0 ∨ s.mv.amax = 0 ∨ s.mv.jmax = 0) →
      b.mst = .faulted ∧ b.err = 4 ∧ t.mv.as = 0 ∧ t.mv.sw = 0x08 ∧ (t.ax k).out.duty = 0 ∧
        (t.ax k).m = rest) ∧
    (a.mst ≠ .faulted → s.mv.en = 1 → s.mv.cm = 2 →
      (a.mst = .rampActive ∨ (s.mv.vmax ≠ 0 ∧ s.mv.amax ≠ 0 ∧ s.mv.jmax ≠ 0)) →
      (if (s.ax k).oc = true then b.mst = .faulted ∧ b.err = 3
      else if s.mv.maxs.toNat < s.mv.mins.toNat then b.mst = .faulted ∧ b.err = 1
      else if s.cfg.stallTicks ≤ cnt then b.mst = .faulted ∧ b.err = 2
      else b.mst = .rampActive ∧ b.err = a.err) ∧
      (let start := if a.mst ≠ .rampActive then Motion.rampStart s.cfg k s.mv
        else if s.cfg.retargetDelta ≤ max cmd a.prevCmd.toNat - min cmd a.prevCmd.toNat then
          { (s.ax k).m with pos := .zero }
        else (s.ax k).m
       let m := start.update (F32.mul (F32.ofNat cmd) s.cfg.kv)
       t.mv.as.toNat = min (min (F32.floorHalves (F32.div (F32.abs m.v) s.cfg.kv) 1) 255)
          s.mv.maxs.toNat ∧
       (t.ax k).out.duty.toNat =
          (if s.mv.maxs = 0 then 0 else min 100 (t.mv.as.toNat * 100 / s.mv.maxs.toNat)) ∧
       (b.mst = .rampActive →
          (t.ax k).m = m ∧ b.done = m.arrived s.cfg ∧ b.stallCnt.toNat = cnt ∧
          t.mv.sw.getLsbD 0 = decide (t.mv.as ≠ 0)) ∧
       (b.mst = .faulted →
          (t.ax k).m = rest ∧ b.done = false ∧ b.stallCnt = 0 ∧
          t.mv.sw = (if t.mv.as = 0 then 0x08 else 0x09))))

/-- R180, R139: an M_STEP of axis k performs P1 to P4, the handler of the state that P4 leaves, the record of
`prev_cmd`, P6, CHECK_ERROR when that state is active (R191), P8 and P9, in this order, each on axis k; it
writes only `MV`, axis k (not its overcurrent input) and the output history, to which it adds exactly one
call; it takes a valid Direction and keeps the last valid one otherwise (R181), keeps the host-owned bytes of
the image, and writes back the axis's own Status_Word and Error_Code.  That the phases hand over their
locals in `loc`, and that M_STEP gives `loc` back, is log entry 2. -/
def Obligations.MStepFrame : Prop :=
  ∀ (s : State) (k : Axis), NextWith (exec (.mStep k) s) fun t =>
    (∃ s₁ s₂ s₃,
      execAll [.p1DirSanitize, .p2CmdClamp, .p3ResetError, .p4ModeSelect] { s with loc.axis := k } =
        .next s₁ ∧
      exec (match (s₁.ax k).s.mst with
        | .disabled => .p5HandleIdle
        | .onOffActive => .p5HandleOnOff
        | .rampActive => .p5HandleRamp
        | .faulted => .p5HandleIdle) s₁ = .next s₂ ∧
      execAll
        (match (s₁.ax k).s.mst with
        | .disabled => [.p6Duty, .p6Actuate, .p8Status, .p9Writeback]
        | .onOffActive => [.p6Duty, .p6Actuate, .checkError, .p8Status, .p9Writeback]
        | .rampActive => [.p6Duty, .p6Actuate, .checkError, .p8Status, .p9Writeback]
        | .faulted => [.p6Duty, .p6Actuate, .p8Status, .p9Writeback])
        (s₂.setAx k { s₂.ax k with s.prevCmd := s₂.loc.cmdEff }) = .next s₃ ∧
      t = { s₃ with loc := s.loc }) ∧
    t = { s.setAx k (t.ax k) with mv := t.mv, calls := t.calls } ∧ (t.ax k).oc = (s.ax k).oc ∧
    t.calls = s.calls ++ [⟨k, (t.ax k).out.duty, (t.ax k).out.dir⟩] ∧
    t.mv = { s.mv with as := t.mv.as, sw := (t.ax k).s.sw, ec := (t.ax k).s.err } ∧
    (s.mv.dir = 0 → (t.ax k).s.dirEff = .idle) ∧
    (s.mv.dir = 1 → (t.ax k).s.dirEff = .forward) ∧
    (s.mv.dir = 2 → (t.ax k).s.dirEff = .reverse) ∧
    (3 ≤ s.mv.dir.toNat → (t.ax k).s.dirEff = (s.ax k).s.dirEff) ∧
    (t.ax k).out.dir = (t.ax k).s.dirEff ∧ (t.ax k).out.stb = true ∧
    (t.ax k).out.done = (t.ax k).s.done ∧
    (t.ax k).s.prevCmd.toNat = min (max s.mv.cmd.toNat s.mv.mins.toNat) s.mv.maxs.toNat

/-- R139: M_STEP(k) reads only `MV`, `rr`, axis k and the configuration: two states that agree on these, and
may differ in everything else, get the same axis k, the same `MV` and the same OutputPWM call. -/
def Obligations.MStepDependsOnItsAxisOnly : Prop :=
  ∀ (s t : State) (k : Axis),
    s.cfg = t.cfg → s.mv = t.mv → s.rr = t.rr → (s.ax k).s = (t.ax k).s → (s.ax k).m = (t.ax k).m →
    (s.ax k).oc = (t.ax k).oc →
    NextWith (exec (.mStep k) s) fun s' => NextWith (exec (.mStep k) t) fun t' =>
      s'.ax k = t'.ax k ∧ s'.mv = t'.mv ∧
      s'.calls.drop s.calls.length = t'.calls.drop t.calls.length

/-- R186, R180: an M_STEP of an enabled ON_OFF axis that is not FAULTED reports the clamped command at once and
calls OutputPWM with its percentage of Max_Speed, also in the tick in which the fault check latches
OVERCURRENT or RANGE (R190 before R191, R212, R253): that tick's Status_Word is 0x09 (0x08 at speed 0),
with no fault it is 0x07 (0x06 at speed 0). -/
def Obligations.MStepOnOffTracksTheCommand : Prop :=
  ∀ (s : State) (k : Axis), s.cfg.WF = true →
    (s.ax k).s.mst ≠ .faulted → s.mv.en = 1 → s.mv.cm = 1 →
    NextWith (exec (.mStep k) s) fun t =>
      let cmd := min (max s.mv.cmd.toNat s.mv.mins.toNat) s.mv.maxs.toNat
      t.mv.as.toNat = cmd ∧ (t.ax k).s.done = false ∧ (t.ax k).s.stallCnt = 0 ∧
      (t.ax k).out.duty.toNat = (if s.mv.maxs = 0 then 0 else cmd * 100 / s.mv.maxs.toNat) ∧
      ((s.ax k).oc = false → s.mv.mins.toNat ≤ s.mv.maxs.toNat →
        (t.ax k).s.mst = .onOffActive ∧ (t.ax k).s.err = (s.ax k).s.err ∧
        t.mv.sw = (if cmd = 0 then 0x06 else 0x07) ∧
        (t.ax k).m = if (s.ax k).s.mst = .onOffActive then (s.ax k).m
          else Motion.atRest (s.cfg.distance k)) ∧
      (((s.ax k).oc = true ∨ s.mv.maxs.toNat < s.mv.mins.toNat) →
        (t.ax k).s.mst = .faulted ∧ (t.ax k).s.err = (if (s.ax k).oc = true then 3 else 1) ∧
        t.mv.sw = (if cmd = 0 then 0x08 else 0x09) ∧ (t.ax k).m = Motion.atRest (s.cfg.distance k))

/-- R217: an M_STEP of a FAULTED axis that is not cleared reports Actual_Speed 0, Status_Word 0x08 and the
latched code, and calls OutputPWM with duty 0. -/
def Obligations.MStepFaultedStaysSafe : Prop :=
  ∀ (s : State) (k : Axis), (s.ax k).s.mst = .faulted → ¬ (s.rr = true ∧ s.mv.en ≠ 1) →
    NextWith (exec (.mStep k) s) fun t =>
      t.mv.as = 0 ∧ t.mv.sw = 0x08 ∧ t.mv.ec = (s.ax k).s.err ∧ (t.ax k).s.err = (s.ax k).s.err ∧
      (t.ax k).s.mst = .faulted ∧ (t.ax k).s.done = false ∧ (t.ax k).out.duty = 0 ∧
      (t.ax k).m = (s.ax k).m ∧ (t.ax k).s.stallCnt = (s.ax k).s.stallCnt

/-- R184, R188: in the tick whose image has Enable other than 1, or no selected mode, an axis that is not
FAULTED stops at once: Actual_Speed 0, Status_Word 0, duty 0, the profile at rest unless it was already
DISABLED. -/
def Obligations.MStepDisableStopsAtOnce : Prop :=
  ∀ (s : State) (k : Axis), (s.ax k).s.mst ≠ .faulted →
    (s.mv.en ≠ 1 ∨ (s.mv.cm ≠ 1 ∧ s.mv.cm ≠ 2)) →
    NextWith (exec (.mStep k) s) fun t =>
      t.mv.as = 0 ∧ t.mv.sw = 0 ∧ (t.ax k).s.mst = .disabled ∧ (t.ax k).out.duty = 0 ∧
      (t.ax k).s.done = false ∧
      ((s.ax k).s.mst ≠ .disabled → (t.ax k).m = Motion.atRest (s.cfg.distance k))

/-- R44, R166, R189: every M_STEP writes an Actual_Speed of at most Max_Speed and calls OutputPWM with a duty
of at most 100. -/
def Obligations.MStepCapsSpeedAndDuty : Prop :=
  ∀ (s : State) (k : Axis), NextWith (exec (.mStep k) s) fun t =>
    t.mv.as.toNat ≤ s.mv.maxs.toNat ∧ (t.ax k).out.duty.toNat ≤ 100

/-! ## The register-map fields -/

/-- R98, R103: an access to a MotorView field is the host read or write of the cell at `BASE_Mk` plus the
field's offset (the pseudo-instructions `rdm` and `wrm`), for each of the fourteen fields.  That a row of
the register map means this access is log entry 3, the byte of a ⊥ cell log entry 11. -/
def Obligations.MotorFieldAccessIsAHostAccess : Prop :=
  ∀ (s : State) (k : Axis) (i : Fin 14),
    let ctor : Access → Instr := (![.controlMode k, .enable k, .commandSpeed k, .actualSpeed k,
      .direction k, .maxSpeed k, .minSpeed k, .vmax k, .amax k, .jmax k, .maxAcc k, .maxDec k,
      .statusWord k, .errorCode k] : Fin 14 → Access → Instr) i
    (∀ b, s.cell (s.cfg.motorAddr k i) = some b →
      exec (ctor .rd) s = .next { s with hpRdata := b }) ∧
    (s.cell (s.cfg.motorAddr k i) = none →
      exec (ctor .rd) s = .next { s with hpRdata := Config.freeByte s.draws, draws := s.draws + 1 }) ∧
    ∀ d, NextWith (exec (ctor (.wr d)) s) fun t =>
      (∀ x, t.cell x = if x = s.cfg.motorAddr k i then some d else s.cell x) ∧
      t = { s with bank := t.bank }

/-- R98, R103: an access to a SystemView field is the host read or write of the cell at `BASE_SYS` plus the
field's offset (`rds` and `wrs`), for each of the seven fields (log entries 3 and 11). -/
def Obligations.SystemFieldAccessIsAHostAccess : Prop :=
  ∀ (s : State) (i : Fin 7),
    let ctor : Access → Instr := (![.deviceId, .firmwareVersion, .systemStatus, .systemError,
      .resetErrorCommand, .configBaudrate, .configParity] : Fin 7 → Access → Instr) i
    (∀ b, s.cell (s.cfg.sysAddr i) = some b →
      exec (ctor .rd) s = .next { s with hpRdata := b }) ∧
    (s.cell (s.cfg.sysAddr i) = none →
      exec (ctor .rd) s = .next { s with hpRdata := Config.freeByte s.draws, draws := s.draws + 1 }) ∧
    ∀ d, NextWith (exec (ctor (.wr d)) s) fun t =>
      (∀ x, t.cell x = if x = s.cfg.sysAddr i then some d else s.cell x) ∧
      t = { s with bank := t.bank }

/-! ## Invariants -/

/-- Every step of the block keeps `State.Coherent`. -/
def Obligations.StepKeepsCoherence : Prop :=
  ∀ s t : State, s.Coherent → step s = .next t → t.Coherent

/-- R167: every step of the block keeps the velocity, acceleration and jerk bounds of an axis in
RAMP_ACTIVE, for every well-formed configuration. -/
def Obligations.StepKeepsTheMotionBounds : Prop :=
  ∀ s t : State, s.MotionBounded → step s = .next t → t.MotionBounded

/-- The state after reset is coherent and meets the motion bounds. -/
def Obligations.ResetMeetsTheInvariants : Prop := State.reset.Coherent ∧ State.reset.MotionBounded
end

