-- ==== Sys2Proof/Laws/Encoding.lean ====
section
/-! SUPPORT. The laws of the encodings that the statements about words rest on: the AXIS bit, the access bits of a
field word, and the words of the micro-ops in SEQ. -/

namespace Sys2Proof

/-- The AXIS bit of an axis is read back. -/
@[simp] theorem axisOfBit_bit (k : Axis) : axisOfBit k.bit = k := by cases k <;> rfl

/-- The AXIS bit is one bit. -/
theorem Axis.bit_lt (k : Axis) : k.bit < 2 := by cases k <;> decide

/-- The axis of a bit has that bit. -/
theorem axisOfBit_inv {b : Nat} (h : b < 2) : (axisOfBit b).bit = b := by
  interval_cases b <;> rfl

/-- An operation whose word has the given number is encoded in that word. -/
theorem encode_of_nat {i : Instr} {w : Word32} (h : encodeNat i = w.toNat) : encode i = w := by
  rw [encode, h, BitVec.ofNat_toNat, BitVec.setWidth_eq]

/-- The bits of an access: a byte in bits 23..16 and the write strobe in bit 9. -/
theorem Access.bits_cases (acc : Access) :
    ∃ w d, w < 2 ∧ d < 256 ∧ acc.bits = d * 2 ^ 16 + w * 2 ^ 9 := by
  cases acc with
  | rd => exact ⟨0, 0, by omega, by omega, rfl⟩
  | wr d => exact ⟨1, d.toNat, by omega, d.isLt, by rw [Access.bits, Nat.one_mul]⟩

/-- The access of a field word is read back from its bits. -/
theorem decodeAccess_of_fields {acc : Access} {n : Nat} (h9 : field n 9 9 = field acc.bits 9 9)
    (h : field n 23 16 = field acc.bits 23 16) : decodeAccess n = .ok acc := by
  unfold decodeAccess
  cases acc with
  | rd => rw [h9, h]; rfl
  | wr d =>
    have hd := d.isLt
    have e1 : field (Access.wr d).bits 9 9 = 1 := by simp only [field, Access.bits]; omega
    have e2 : field (Access.wr d).bits 23 16 = d.toNat := by simp only [field, Access.bits]; omega
    rw [h9, e1, h, e2, if_pos rfl, BitVec.ofNat_toNat, BitVec.setWidth_eq]

end Sys2Proof

namespace Sys2Proof.Machine

/-- A successor index below 7 in the SystemView. -/
theorem fetchUop_sysLoad (i : BitVec 4) (h : i.toNat ≤ 6) :
    decode .uop16 ((uopOf (.sysLoad i)).setWidth 32) = .ok (.sysLoad i) := by
  revert i; decide

theorem fetchUop_sysSave (i : BitVec 4) (h : i.toNat ≤ 6) :
    decode .uop16 ((uopOf (.sysSave i)).setWidth 32) = .ok (.sysSave i) := by
  revert i; decide

theorem fetchUop_mLoad (k : Axis) (i : BitVec 4) (h : i.toNat ≤ 13) :
    decode .uop16 ((uopOf (.mLoad k i)).setWidth 32) = .ok (.mLoad k i) := by
  revert i; cases k <;> decide

theorem fetchUop_mSave (k : Axis) (i : BitVec 4) (h : i.toNat ≤ 13) :
    decode .uop16 ((uopOf (.mSave k i)).setWidth 32) = .ok (.mSave k i) := by
  revert i; cases k <;> decide

/-- The word after each word of SEQ (R130): the next index, or at the last index what follows. -/
theorem nextUop_word {i : Instr} (hf : i.format = .uop16) (hw : i.WF = true) :
    nextUop i =
      let w := uopOf i
      if w = 0x7000 then none
      else if w = 0x1006 then some 0x2000
      else if w = 0x200D then some 0x3000
      else if w = 0x3000 then some 0x4000
      else if w = 0x400D then some 0x2100
      else if w = 0x210D then some 0x3100
      else if w = 0x3100 then some 0x4100
      else if w = 0x410D then some 0x5000
      else if w = 0x5000 then some 0x6000
      else if w = 0x6006 then some 0x7000
      else some (w + 1) := by
  cases i <;> try (cases hf; done)
  case sysLoad i => revert i; decide
  case sysSave i => revert i; decide
  case mLoad k i => revert i; cases k <;> decide
  case mSave k i => revert i; cases k <;> decide
  case mStep k => cases k <;> decide
  all_goals decide

/-- The micro-op after one of SEQ is well formed and a micro-op (R130). -/
theorem nextInstr_wf {i j : Instr} (h : nextInstr i = some j) : j.format = .uop16 ∧ j.WF = true := by
  have inc6 : ∀ i : BitVec 4, i.toNat < 6 → decide ((i + 1).toNat ≤ 6) = true := by decide
  have inc13 : ∀ i : BitVec 4, i.toNat < 13 → decide ((i + 1).toNat ≤ 13) = true := by decide
  cases i
  case sysLoad i =>
    simp only [nextInstr] at h
    split at h <;> cases h
    · exact ⟨rfl, inc6 i ‹_›⟩
    · exact ⟨rfl, rfl⟩
  case sysSave i =>
    simp only [nextInstr] at h
    split at h <;> cases h
    · exact ⟨rfl, inc6 i ‹_›⟩
    · exact ⟨rfl, rfl⟩
  case mLoad k i =>
    simp only [nextInstr] at h
    split at h <;> cases h
    · exact ⟨rfl, inc13 i ‹_›⟩
    · exact ⟨rfl, rfl⟩
  case mSave k i =>
    simp only [nextInstr] at h
    split at h
    · cases h; exact ⟨rfl, inc13 i ‹_›⟩
    · cases k <;> cases h <;> exact ⟨rfl, rfl⟩
  all_goals cases h
  all_goals exact ⟨rfl, rfl⟩

end Sys2Proof.Machine
end

