-- ==== Sys2Proof/Laws/Operands.lean ====
section
/-! SUPPORT. The laws of the views, the operand conversions and the status flags. -/

namespace Sys2Proof.Machine

/-- A byte of the MotorView image after one byte of it is set. -/
theorem MotorView.get_set (v : MotorView) (i j : Nat) (b : Byte) (hi : i < 14) (hj : j < 14) :
    (v.set i b).get j = if j = i then b else v.get j := by
  interval_cases i <;> interval_cases j <;> rfl

/-- A byte of the SystemView image after one byte of it is set. -/
theorem SysView.get_set (v : SysView) (i j : Nat) (b : Byte) (hi : i < 7) (hj : j < 7) :
    (v.set i b).get j = if j = i then b else v.get j := by
  interval_cases i <;> interval_cases j <;> rfl

/-- A MotorView is its fourteen bytes. -/
theorem MotorView.ext_get {v w : MotorView} (h : ∀ i, i < 14 → v.get i = w.get i) : v = w := by
  obtain ⟨⟩ := v
  obtain ⟨⟩ := w
  simp only [MotorView.mk.injEq]
  exact ⟨h 0 (by omega), h 1 (by omega), h 2 (by omega), h 3 (by omega), h 4 (by omega),
    h 5 (by omega), h 6 (by omega), h 7 (by omega), h 8 (by omega), h 9 (by omega), h 10 (by omega),
    h 11 (by omega), h 12 (by omega), h 13 (by omega)⟩

/-- The record of an image is the record it came from (R133). -/
theorem MotorView.ofImage_image (v : MotorView) : MotorView.ofImage v.image = some v := rfl

/-- The record of an image is the record it came from (R133). -/
theorem SysView.ofImage_image (v : SysView) : SysView.ofImage v.image = some v := rfl

/-- The silent byte truncation keeps a byte (R11). -/
@[simp] theorem trunc8_toNat (b : Byte) : trunc8 b.toNat = b := by
  apply BitVec.eq_of_toNat_eq
  have := b.isLt
  simp only [trunc8, BitVec.toNat_ofNat]
  omega

/-- The clamp of R11 as a number. -/
theorem clampByte_toNat (x lo hi : Byte) :
    (clampByte x lo hi).toNat = min (max x.toNat lo.toNat) hi.toNat := by
  have := hi.isLt
  simp only [clampByte, BitVec.toNat_ofNat]
  omega

/-- `cmd_eff` as a number (R182). -/
theorem effectiveCommand_toNat (v : MotorView) :
    (effectiveCommand v).toNat = min (max v.cmd.toNat v.mins.toNat) v.maxs.toNat :=
  clampByte_toNat _ _ _

/-- `cmd_eff` never passes Max_Speed (R182). -/
theorem effectiveCommand_le (v : MotorView) : (effectiveCommand v).toNat ≤ v.maxs.toNat := by
  rw [effectiveCommand_toNat]; omega

/-- The range flag (R182). -/
theorem rangeIsBad_iff (v : MotorView) : rangeIsBad v = true ↔ v.maxs.toNat < v.mins.toNat := by
  rw [rangeIsBad, decide_eq_true_iff]

/-- Actual_Speed from a velocity as a number: rounded, saturated to a byte, capped at Max_Speed (R166). -/
theorem speedOfVelocity_toNat (c : Cfg) (maxs : Byte) (v : F32) :
    (speedOfVelocity c maxs v).toNat =
      min (min (F32.floorHalves (F32.div (F32.abs v) c.kv) 1) 255) maxs.toNat := by
  have := maxs.isLt
  simp only [speedOfVelocity, sat8, BitVec.toNat_ofNat]
  omega

/-- The request bit is bit 0 (R99). -/
theorem resetRequest_eq (b : Byte) : resetRequest b = b.getLsbD 0 := by
  revert b; decide

/-- The effective Direction byte (R181). -/
theorem directionOf_none {b : Byte} (h : 3 ≤ b.toNat) : directionOf b = none := by
  revert b; decide

/-- The duty in an active state (R189). -/
theorem dutyOf_active {m : Mst} {speed maxs : Byte} (h : m.active = true) (hm : maxs ≠ 0) :
    (dutyOf m speed maxs).toNat = min 100 (speed.toNat * 100 / maxs.toNat) := by
  rw [dutyOf, if_pos ⟨h, hm⟩, BitVec.toNat_ofNat]
  exact Nat.mod_eq_of_lt (lt_of_le_of_lt (Nat.min_le_left 100 _) (by decide))

/-- The duty is 0 in an inactive state and where Max_Speed is 0 (R189). -/
theorem dutyOf_zero {m : Mst} {speed maxs : Byte} (h : m.active = false ∨ maxs = 0) :
    dutyOf m speed maxs = 0 := by
  rw [dutyOf, if_neg]
  rintro ⟨h1, h2⟩
  rcases h with h | h
  · rw [h] at h1; exact absurd h1 (by decide)
  · exact h2 h

/-- The duty never passes 100 (R44, R189). -/
theorem dutyOf_le (m : Mst) (speed maxs : Byte) : (dutyOf m speed maxs).toNat ≤ 100 := by
  by_cases h : m.active = true ∧ maxs ≠ 0
  · rw [dutyOf_active h.1 h.2]; omega
  · rw [dutyOf, if_neg h]; decide

/-- The bits of a status byte (R36, R39). -/
theorem statusBits_bits (a b c d : Bool) :
    (statusBits a b c d).getLsbD 0 = d ∧ (statusBits a b c d).getLsbD 1 = c ∧
      (statusBits a b c d).getLsbD 2 = b ∧ (statusBits a b c d).getLsbD 3 = a ∧
      (statusBits a b c d).toNat < 16 := by
  revert a b c d; decide

/-- The active states are ON_OFF_ACTIVE and RAMP_ACTIVE (R19). -/
theorem Mst.active_iff (m : Mst) : m.active = true ↔ m = .onOffActive ∨ m = .rampActive := by
  cases m <;> simp [Mst.active]

/-- The bits of the Status_Word (R192). -/
theorem statusWordOf_bits (m : Mst) (speed cmdEff : Byte) :
    ((statusWordOf m speed cmdEff).getLsbD 0 = true ↔ speed ≠ 0) ∧
      ((statusWordOf m speed cmdEff).getLsbD 1 = true ↔ m = .onOffActive ∨ m = .rampActive) ∧
      ((statusWordOf m speed cmdEff).getLsbD 2 = true ↔
        (m = .onOffActive ∨ m = .rampActive) ∧ speed = cmdEff) ∧
      ((statusWordOf m speed cmdEff).getLsbD 3 = true ↔ m = .faulted) ∧
      (statusWordOf m speed cmdEff).toNat < 16 := by
  have h := statusBits_bits (decide (m = .faulted)) (m.active && decide (speed = cmdEff)) m.active
    (decide (speed ≠ 0))
  rw [← m.active_iff]
  unfold statusWordOf
  rw [h.1, h.2.1, h.2.2.1, h.2.2.2.1]
  exact ⟨decide_eq_true_iff, Iff.rfl, by rw [Bool.and_eq_true, decide_eq_true_iff],
    decide_eq_true_iff, h.2.2.2.2⟩

/-- The Status_Word of an inactive axis at Actual_Speed 0 (R188, R217). -/
theorem statusWordOf_inactive (cmdEff : Byte) :
    statusWordOf .disabled 0 cmdEff = 0 ∧ statusWordOf .faulted 0 cmdEff = 8 := by
  simp only [statusWordOf, Mst.active, Bool.false_and]
  decide

/-- The Status_Word of a FAULTED axis: FAULTED, and RUNNING for a speed other than 0 (R192). -/
theorem statusWordOf_faulted (speed cmdEff : Byte) :
    statusWordOf .faulted speed cmdEff = if speed = 0 then 0x08 else 0x09 := by
  unfold statusWordOf
  by_cases h : speed = 0
  · simp [h, Mst.active, statusBits]
  · simp only [h, Mst.active, Bool.false_and, if_false, decide_true, ne_eq, not_false_eq_true]; decide

/-- The Status_Word of an active axis on its effective command (R186). -/
theorem statusWordOf_onTarget (m : Mst) (hm : m.active = true) (speed : Byte) :
    statusWordOf m speed speed = if speed = 0 then 0x06 else 0x07 := by
  have hf : decide (m = .faulted) = false := by cases m <;> first | rfl | exact absurd hm (by decide)
  simp only [statusWordOf, hm, hf, decide_true, Bool.true_and]
  split
  · rename_i h; rw [decide_eq_false (by exact fun hc => hc h)]; decide
  · rename_i h; rw [decide_eq_true (by exact h)]; decide

/-- The bits of System_Status (R39). -/
theorem systemStatusOf_bits (a b : AxisRegs) :
    ((systemStatusOf a b).getLsbD 0 = true ↔ a.mst = .faulted) ∧
      ((systemStatusOf a b).getLsbD 1 = true ↔ b.mst = .faulted) ∧
      (systemStatusOf a b).getLsbD 2 = a.sw.getLsbD 0 ∧
      (systemStatusOf a b).getLsbD 3 = b.sw.getLsbD 0 ∧ (systemStatusOf a b).toNat < 16 := by
  have h := statusBits_bits (b.sw.getLsbD 0) (a.sw.getLsbD 0) (decide (b.mst = .faulted))
    (decide (a.mst = .faulted))
  exact ⟨by rw [← decide_eq_true_iff (p := a.mst = .faulted), ← h.1]; rfl,
    by rw [← decide_eq_true_iff (p := b.mst = .faulted), ← h.2.1]; rfl, h.2.2.1, h.2.2.2.1,
    h.2.2.2.2⟩

end Sys2Proof.Machine
end

