-- ==== Sys2Proof/Laws/Memory.lean ====
section
/-! SUPPORT. The laws of the Register Bank: read after write, the canonical form is kept, and equal banks are
equal lists. -/

namespace Sys2Proof.Machine

/-- A read after a write: the byte written at its address, the old cell elsewhere. -/
theorem Bank.read_write (b : Bank) (a x : Nat) (v : Byte) :
    Bank.read (Bank.write b a v) x = if x = a then some v else Bank.read b x := by
  induction b with
  | nil => simp only [Bank.write, Bank.read]; grind
  | cons c rest ih =>
    obtain ⟨y, w⟩ := c
    simp only [Bank.write]
    split
    · simp only [Bank.read]; grind
    · split
      · simp only [Bank.read]; grind
      · simp only [Bank.read, ih]; grind

/-- Below the first address of a bank in canonical form every cell is ⊥. -/
theorem Bank.read_below {lo : Nat} {b : Bank} (h : Bank.wfFrom lo b = true) {x : Nat} (hx : x < lo) :
    Bank.read b x = none := by
  induction b generalizing lo with
  | nil => rfl
  | cons c rest ih =>
    obtain ⟨y, w⟩ := c
    simp only [Bank.wfFrom, Bool.and_eq_true, decide_eq_true_eq] at h
    have hne : ¬ y = x := by omega
    simp only [Bank.read, if_neg hne]
    exact ih h.2 (by omega)

/-- The canonical form from a higher bound is one from a lower bound. -/
theorem Bank.wfFrom_mono {lo lo' : Nat} {b : Bank} (h : Bank.wfFrom lo b = true) (hl : lo' ≤ lo) :
    Bank.wfFrom lo' b = true := by
  cases b with
  | nil => rfl
  | cons c rest =>
    obtain ⟨y, w⟩ := c
    simp only [Bank.wfFrom, Bool.and_eq_true, decide_eq_true_eq] at h ⊢
    exact ⟨⟨by omega, h.1.2⟩, h.2⟩

/-- A write above the bound keeps the canonical form. -/
theorem Bank.wfFrom_write {lo : Nat} {b : Bank} (h : Bank.wfFrom lo b = true) {a : Nat} (ha : a < 256)
    (hlo : lo ≤ a) (v : Byte) : Bank.wfFrom lo (Bank.write b a v) = true := by
  induction b generalizing lo with
  | nil => simp [Bank.write, Bank.wfFrom, ha, hlo]
  | cons c rest ih =>
    obtain ⟨y, w⟩ := c
    simp only [Bank.wfFrom, Bool.and_eq_true, decide_eq_true_eq] at h
    simp only [Bank.write]
    split
    · rename_i hay
      simp only [Bank.wfFrom, Bool.and_eq_true, decide_eq_true_eq]
      exact ⟨⟨hlo, ha⟩, ⟨by omega, h.1.2⟩, h.2⟩
    · split
      · rename_i hya
        subst hya
        simp only [Bank.wfFrom, Bool.and_eq_true, decide_eq_true_eq]
        exact ⟨⟨hlo, ha⟩, h.2⟩
      · simp only [Bank.wfFrom, Bool.and_eq_true, decide_eq_true_eq]
        exact ⟨h.1, ih h.2 (by omega)⟩

/-- A write of an 8-bit address keeps the canonical form. -/
theorem Bank.wf_write {b : Bank} (h : Bank.wf b = true) (a v : Byte) :
    Bank.wf (Bank.write b a.toNat v) = true :=
  Bank.wfFrom_write h a.isLt (Nat.zero_le _) v

/-- The empty bank is in canonical form. -/
theorem Bank.wf_nil : Bank.wf [] = true := rfl

/-- Two banks in canonical form with the same cells are the same list. -/
theorem Bank.ext_of_wfFrom {lo : Nat} {b c : Bank} (hb : Bank.wfFrom lo b = true)
    (hc : Bank.wfFrom lo c = true) (h : ∀ x, Bank.read b x = Bank.read c x) : b = c := by
  induction b generalizing lo c with
  | nil =>
    cases c with
    | nil => rfl
    | cons d rest =>
      obtain ⟨y, w⟩ := d
      have := h y
      simp [Bank.read] at this
  | cons d rest ih =>
    obtain ⟨y, w⟩ := d
    cases c with
    | nil =>
      have := h y
      simp [Bank.read] at this
    | cons d' rest' =>
      obtain ⟨y', w'⟩ := d'
      simp only [Bank.wfFrom, Bool.and_eq_true, decide_eq_true_eq] at hb hc
      have hy := h y
      have hy' := h y'
      have heq : y = y' := by
        by_contra hne
        rcases Nat.lt_or_gt_of_ne hne with hlt | hlt
        · simp [Bank.read, Ne.symm hne, Bank.read_below hc.2 (x := y) (by omega)] at hy
        · simp [Bank.read, hne, Bank.read_below hb.2 (x := y') (by omega)] at hy'
      subst heq
      simp only [Bank.read, if_true, Option.some.injEq] at hy
      subst hy
      congr 1
      refine ih hb.2 hc.2 fun x => ?_
      by_cases hx : y = x
      · subst hx
        rw [Bank.read_below hb.2 (by omega), Bank.read_below hc.2 (by omega)]
      · have := h x
        simpa [Bank.read, hx] using this

/-- Two banks in canonical form with the same cells are the same list. -/
theorem Bank.ext_of_wf {b c : Bank} (hb : Bank.wf b = true) (hc : Bank.wf c = true)
    (h : ∀ x, Bank.read b x = Bank.read c x) : b = c :=
  Bank.ext_of_wfFrom hb hc h

/-- The later of two writes to one cell is the only one that counts. -/
theorem Bank.write_write {b : Bank} (h : Bank.wf b = true) (a v w : Byte) :
    Bank.write (Bank.write b a.toNat v) a.toNat w = Bank.write b a.toNat w := by
  refine Bank.ext_of_wf (Bank.wf_write (Bank.wf_write h a v) a w) (Bank.wf_write h a w) fun x => ?_
  simp only [Bank.read_write]
  split <;> rfl

/-- Writing the byte that a cell holds changes nothing. -/
theorem Bank.write_same {b : Bank} (h : Bank.wf b = true) {a v : Byte}
    (hv : Bank.read b a.toNat = some v) : Bank.write b a.toNat v = b := by
  refine Bank.ext_of_wf (Bank.wf_write h a v) h fun x => ?_
  rw [Bank.read_write]
  split
  · rename_i hx
    rw [hx, hv]
  · rfl

/-- Reads after a run of consecutive writes. -/
theorem Bank.read_writeAll (b : Bank) (a : Nat) (vs : List Byte) (x : Nat) :
    Bank.read (Bank.writeAll b a vs) x =
      if a ≤ x ∧ x < a + vs.length then vs[x - a]? else Bank.read b x := by
  induction vs generalizing b a with
  | nil =>
    have : ¬ (a ≤ x ∧ x < a + ([] : List Byte).length) := by simp
    rw [if_neg this]; rfl
  | cons v vs ih =>
    simp only [Bank.writeAll, ih, Bank.read_write, List.length_cons]
    by_cases hx : x = a
    · subst hx; simp
    · by_cases hin : a + 1 ≤ x ∧ x < a + 1 + vs.length
      · have h2 : a ≤ x ∧ x < a + (vs.length + 1) := by omega
        rw [if_pos hin, if_pos h2]
        have : x - a = (x - (a + 1)) + 1 := by omega
        rw [this]; rfl
      · have h2 : ¬ (a ≤ x ∧ x < a + (vs.length + 1)) := by omega
        rw [if_neg hin, if_neg h2, if_neg hx]

/-- A run of consecutive writes inside 0..255 keeps the canonical form. -/
theorem Bank.wf_writeAll {b : Bank} (h : Bank.wf b = true) (a : Nat) (vs : List Byte)
    (ha : a + vs.length ≤ 256) : Bank.wf (Bank.writeAll b a vs) = true := by
  induction vs generalizing b a with
  | nil => exact h
  | cons v vs ih =>
    simp only [List.length_cons] at ha
    exact ih (Bank.wfFrom_write h (by omega) (Nat.zero_le _) v) (a + 1) (by omega)

end Sys2Proof.Machine
end

