-- ==== Sys2Proof/Laws/State.lean ====
section
/-! SUPPORT. One lemma per field per update of the state, so that no later proof unfolds a record update. -/

namespace Sys2Proof.Machine

/-! ### Reading and replacing an axis -/

@[simp] theorem State.ax_one (s : State) : s.ax .one = s.ax1 := rfl
@[simp] theorem State.ax_two (s : State) : s.ax .two = s.ax2 := rfl
@[simp] theorem State.setAx_one (s : State) (a : AxisState) : s.setAx .one a = { s with ax1 := a } := rfl
@[simp] theorem State.setAx_two (s : State) (a : AxisState) : s.setAx .two a = { s with ax2 := a } := rfl

/-- The axis just replaced. -/
@[simp] theorem State.ax_setAx (s : State) (k : Axis) (a : AxisState) : (s.setAx k a).ax k = a := by
  cases k <;> rfl

/-- Replacing an axis leaves the other one alone. -/
theorem State.ax_setAx_of_ne (s : State) {k l : Axis} (a : AxisState) (h : l ≠ k) :
    (s.setAx k a).ax l = s.ax l := by
  cases k <;> cases l <;> first | rfl | exact absurd rfl h

/-- Replacing an axis by itself changes nothing. -/
@[simp] theorem State.setAx_ax (s : State) (k : Axis) : s.setAx k (s.ax k) = s := by
  cases k <;> rfl

/-- The later of two replacements of one axis counts. -/
@[simp] theorem State.setAx_setAx (s : State) (k : Axis) (a b : AxisState) :
    (s.setAx k a).setAx k b = s.setAx k b := by
  cases k <;> rfl

@[simp] theorem State.setAx_cfg (s : State) (k : Axis) (a : AxisState) : (s.setAx k a).cfg = s.cfg := by
  cases k <;> rfl
@[simp] theorem State.setAx_bank (s : State) (k : Axis) (a : AxisState) : (s.setAx k a).bank = s.bank := by
  cases k <;> rfl
@[simp] theorem State.setAx_calls (s : State) (k : Axis) (a : AxisState) : (s.setAx k a).calls = s.calls := by
  cases k <;> rfl
@[simp] theorem State.setAx_hpRdata (s : State) (k : Axis) (a : AxisState) : (s.setAx k a).hpRdata = s.hpRdata := by
  cases k <;> rfl
@[simp] theorem State.setAx_seq (s : State) (k : Axis) (a : AxisState) : (s.setAx k a).seq = s.seq := by
  cases k <;> rfl
@[simp] theorem State.setAx_sv (s : State) (k : Axis) (a : AxisState) : (s.setAx k a).sv = s.sv := by
  cases k <;> rfl
@[simp] theorem State.setAx_mv (s : State) (k : Axis) (a : AxisState) : (s.setAx k a).mv = s.mv := by
  cases k <;> rfl
@[simp] theorem State.setAx_rr (s : State) (k : Axis) (a : AxisState) : (s.setAx k a).rr = s.rr := by
  cases k <;> rfl
@[simp] theorem State.setAx_heldTicks (s : State) (k : Axis) (a : AxisState) : (s.setAx k a).heldTicks = s.heldTicks := by
  cases k <;> rfl
@[simp] theorem State.setAx_loc (s : State) (k : Axis) (a : AxisState) : (s.setAx k a).loc = s.loc := by
  cases k <;> rfl
@[simp] theorem State.setAx_draws (s : State) (k : Axis) (a : AxisState) : (s.setAx k a).draws = s.draws := by
  cases k <;> rfl
@[simp] theorem State.setAx_sched (s : State) (k : Axis) (a : AxisState) : (s.setAx k a).sched = s.sched := by
  cases k <;> rfl

/-! ### A bank store (R122) -/

@[simp] theorem State.store_cfg (s : State) (a v : Byte) : (s.store a v).cfg = s.cfg := rfl
@[simp] theorem State.store_bank (s : State) (a v : Byte) :
    (s.store a v).bank = Bank.write s.bank a.toNat v := rfl
@[simp] theorem State.store_ax1 (s : State) (a v : Byte) : (s.store a v).ax1 = s.ax1 := rfl
@[simp] theorem State.store_ax2 (s : State) (a v : Byte) : (s.store a v).ax2 = s.ax2 := rfl
@[simp] theorem State.store_calls (s : State) (a v : Byte) : (s.store a v).calls = s.calls := rfl
@[simp] theorem State.store_hpRdata (s : State) (a v : Byte) : (s.store a v).hpRdata = s.hpRdata := rfl
@[simp] theorem State.store_seq (s : State) (a v : Byte) : (s.store a v).seq = s.seq := rfl
@[simp] theorem State.store_sv (s : State) (a v : Byte) : (s.store a v).sv = s.sv := rfl
@[simp] theorem State.store_mv (s : State) (a v : Byte) : (s.store a v).mv = s.mv := rfl
@[simp] theorem State.store_rr (s : State) (a v : Byte) : (s.store a v).rr = s.rr := rfl
@[simp] theorem State.store_heldTicks (s : State) (a v : Byte) : (s.store a v).heldTicks = s.heldTicks := rfl
@[simp] theorem State.store_loc (s : State) (a v : Byte) : (s.store a v).loc = s.loc := rfl
@[simp] theorem State.store_draws (s : State) (a v : Byte) : (s.store a v).draws = s.draws := rfl
@[simp] theorem State.store_sched (s : State) (a v : Byte) : (s.store a v).sched = s.sched := rfl

/-! ### A host read (R121) -/

@[simp] theorem State.hostRead_cfg (s : State) (a : Byte) : (s.hostRead a).cfg = s.cfg := rfl
@[simp] theorem State.hostRead_bank (s : State) (a : Byte) : (s.hostRead a).bank = s.bank := rfl
@[simp] theorem State.hostRead_ax1 (s : State) (a : Byte) : (s.hostRead a).ax1 = s.ax1 := rfl
@[simp] theorem State.hostRead_ax2 (s : State) (a : Byte) : (s.hostRead a).ax2 = s.ax2 := rfl
@[simp] theorem State.hostRead_calls (s : State) (a : Byte) : (s.hostRead a).calls = s.calls := rfl
@[simp] theorem State.hostRead_hpRdata (s : State) (a : Byte) :
    (s.hostRead a).hpRdata = s.byteAt a := rfl
@[simp] theorem State.hostRead_seq (s : State) (a : Byte) : (s.hostRead a).seq = s.seq := rfl
@[simp] theorem State.hostRead_sv (s : State) (a : Byte) : (s.hostRead a).sv = s.sv := rfl
@[simp] theorem State.hostRead_mv (s : State) (a : Byte) : (s.hostRead a).mv = s.mv := rfl
@[simp] theorem State.hostRead_rr (s : State) (a : Byte) : (s.hostRead a).rr = s.rr := rfl
@[simp] theorem State.hostRead_heldTicks (s : State) (a : Byte) : (s.hostRead a).heldTicks = s.heldTicks := rfl
@[simp] theorem State.hostRead_loc (s : State) (a : Byte) : (s.hostRead a).loc = s.loc := rfl
@[simp] theorem State.hostRead_draws (s : State) (a : Byte) :
    (s.hostRead a).draws = s.drawsAfter a := rfl
@[simp] theorem State.hostRead_sched (s : State) (a : Byte) : (s.hostRead a).sched = s.sched := rfl

/-! ### SYS_LOAD (R131) -/

@[simp] theorem State.sysLoad_cfg (s : State) (i : Nat) : (s.sysLoad i).cfg = s.cfg := rfl
@[simp] theorem State.sysLoad_bank (s : State) (i : Nat) : (s.sysLoad i).bank = s.bank := rfl
@[simp] theorem State.sysLoad_ax1 (s : State) (i : Nat) : (s.sysLoad i).ax1 = s.ax1 := rfl
@[simp] theorem State.sysLoad_ax2 (s : State) (i : Nat) : (s.sysLoad i).ax2 = s.ax2 := rfl
@[simp] theorem State.sysLoad_calls (s : State) (i : Nat) : (s.sysLoad i).calls = s.calls := rfl
@[simp] theorem State.sysLoad_hpRdata (s : State) (i : Nat) : (s.sysLoad i).hpRdata = s.hpRdata := rfl
@[simp] theorem State.sysLoad_seq (s : State) (i : Nat) : (s.sysLoad i).seq = s.seq := rfl
@[simp] theorem State.sysLoad_sv (s : State) (i : Nat) :
    (s.sysLoad i).sv = s.sv.set i (s.byteAt (s.cfg.sysAddr i)) := rfl
@[simp] theorem State.sysLoad_mv (s : State) (i : Nat) : (s.sysLoad i).mv = s.mv := rfl
@[simp] theorem State.sysLoad_rr (s : State) (i : Nat) :
    (s.sysLoad i).rr = if i = 4 then resetRequest (s.byteAt (s.cfg.sysAddr i)) else s.rr := rfl
@[simp] theorem State.sysLoad_heldTicks (s : State) (i : Nat) : (s.sysLoad i).heldTicks = s.heldTicks := rfl
@[simp] theorem State.sysLoad_loc (s : State) (i : Nat) : (s.sysLoad i).loc = s.loc := rfl
@[simp] theorem State.sysLoad_draws (s : State) (i : Nat) :
    (s.sysLoad i).draws = s.drawsAfter (s.cfg.sysAddr i) := rfl
@[simp] theorem State.sysLoad_sched (s : State) (i : Nat) : (s.sysLoad i).sched = s.sched := rfl

/-! ### M_LOAD (R132) -/

@[simp] theorem State.mLoad_cfg (s : State) (k : Axis) (i : Nat) : (s.mLoad k i).cfg = s.cfg := rfl
@[simp] theorem State.mLoad_bank (s : State) (k : Axis) (i : Nat) : (s.mLoad k i).bank = s.bank := rfl
@[simp] theorem State.mLoad_ax1 (s : State) (k : Axis) (i : Nat) : (s.mLoad k i).ax1 = s.ax1 := rfl
@[simp] theorem State.mLoad_ax2 (s : State) (k : Axis) (i : Nat) : (s.mLoad k i).ax2 = s.ax2 := rfl
@[simp] theorem State.mLoad_calls (s : State) (k : Axis) (i : Nat) : (s.mLoad k i).calls = s.calls := rfl
@[simp] theorem State.mLoad_hpRdata (s : State) (k : Axis) (i : Nat) : (s.mLoad k i).hpRdata = s.hpRdata := rfl
@[simp] theorem State.mLoad_seq (s : State) (k : Axis) (i : Nat) : (s.mLoad k i).seq = s.seq := rfl
@[simp] theorem State.mLoad_sv (s : State) (k : Axis) (i : Nat) : (s.mLoad k i).sv = s.sv := rfl
@[simp] theorem State.mLoad_mv (s : State) (k : Axis) (i : Nat) :
    (s.mLoad k i).mv = s.mv.set i (s.byteAt (s.cfg.motorAddr k i)) := rfl
@[simp] theorem State.mLoad_rr (s : State) (k : Axis) (i : Nat) : (s.mLoad k i).rr = s.rr := rfl
@[simp] theorem State.mLoad_heldTicks (s : State) (k : Axis) (i : Nat) : (s.mLoad k i).heldTicks = s.heldTicks := rfl
@[simp] theorem State.mLoad_loc (s : State) (k : Axis) (i : Nat) : (s.mLoad k i).loc = s.loc := rfl
@[simp] theorem State.mLoad_draws (s : State) (k : Axis) (i : Nat) :
    (s.mLoad k i).draws = s.drawsAfter (s.cfg.motorAddr k i) := rfl
@[simp] theorem State.mLoad_sched (s : State) (k : Axis) (i : Nat) : (s.mLoad k i).sched = s.sched := rfl

/-! ### M_SAVE (R134) -/

@[simp] theorem State.mSave_cfg (s : State) (k : Axis) (i : Nat) : (s.mSave k i).cfg = s.cfg := rfl
@[simp] theorem State.mSave_bank (s : State) (k : Axis) (i : Nat) :
    (s.mSave k i).bank = Bank.write s.bank (s.cfg.motorAddr k i).toNat (trunc8 (s.mv.get i).toNat) := rfl
@[simp] theorem State.mSave_ax1 (s : State) (k : Axis) (i : Nat) : (s.mSave k i).ax1 = s.ax1 := rfl
@[simp] theorem State.mSave_ax2 (s : State) (k : Axis) (i : Nat) : (s.mSave k i).ax2 = s.ax2 := rfl
@[simp] theorem State.mSave_calls (s : State) (k : Axis) (i : Nat) : (s.mSave k i).calls = s.calls := rfl
@[simp] theorem State.mSave_hpRdata (s : State) (k : Axis) (i : Nat) : (s.mSave k i).hpRdata = s.hpRdata := rfl
@[simp] theorem State.mSave_seq (s : State) (k : Axis) (i : Nat) : (s.mSave k i).seq = s.seq := rfl
@[simp] theorem State.mSave_sv (s : State) (k : Axis) (i : Nat) : (s.mSave k i).sv = s.sv := rfl
@[simp] theorem State.mSave_mv (s : State) (k : Axis) (i : Nat) : (s.mSave k i).mv = s.mv := rfl
@[simp] theorem State.mSave_rr (s : State) (k : Axis) (i : Nat) : (s.mSave k i).rr = s.rr := rfl
@[simp] theorem State.mSave_heldTicks (s : State) (k : Axis) (i : Nat) : (s.mSave k i).heldTicks = s.heldTicks := rfl
@[simp] theorem State.mSave_loc (s : State) (k : Axis) (i : Nat) : (s.mSave k i).loc = s.loc := rfl
@[simp] theorem State.mSave_draws (s : State) (k : Axis) (i : Nat) : (s.mSave k i).draws = s.draws := rfl
@[simp] theorem State.mSave_sched (s : State) (k : Axis) (i : Nat) : (s.mSave k i).sched = s.sched := rfl

/-! ### SYS_SAVE (R136) -/

@[simp] theorem State.sysSave_cfg (s : State) (i : Nat) : (s.sysSave i).cfg = s.cfg := rfl
@[simp] theorem State.sysSave_bank (s : State) (i : Nat) :
    (s.sysSave i).bank = Bank.write s.bank (s.cfg.sysAddr i).toNat (trunc8 (s.sv.get i).toNat) := rfl
@[simp] theorem State.sysSave_ax1 (s : State) (i : Nat) : (s.sysSave i).ax1 = s.ax1 := rfl
@[simp] theorem State.sysSave_ax2 (s : State) (i : Nat) : (s.sysSave i).ax2 = s.ax2 := rfl
@[simp] theorem State.sysSave_calls (s : State) (i : Nat) : (s.sysSave i).calls = s.calls := rfl
@[simp] theorem State.sysSave_hpRdata (s : State) (i : Nat) : (s.sysSave i).hpRdata = s.hpRdata := rfl
@[simp] theorem State.sysSave_seq (s : State) (i : Nat) : (s.sysSave i).seq = s.seq := rfl
@[simp] theorem State.sysSave_sv (s : State) (i : Nat) : (s.sysSave i).sv = s.sv := rfl
@[simp] theorem State.sysSave_mv (s : State) (i : Nat) : (s.sysSave i).mv = s.mv := rfl
@[simp] theorem State.sysSave_rr (s : State) (i : Nat) : (s.sysSave i).rr = s.rr := rfl
@[simp] theorem State.sysSave_heldTicks (s : State) (i : Nat) : (s.sysSave i).heldTicks = s.heldTicks := rfl
@[simp] theorem State.sysSave_loc (s : State) (i : Nat) : (s.sysSave i).loc = s.loc := rfl
@[simp] theorem State.sysSave_draws (s : State) (i : Nat) : (s.sysSave i).draws = s.draws := rfl
@[simp] theorem State.sysSave_sched (s : State) (i : Nat) : (s.sysSave i).sched = s.sched := rfl

/-! ### SYS_STEP (R135) -/

@[simp] theorem State.sysStep_cfg (s : State) : (s.sysStep).cfg = s.cfg := rfl
@[simp] theorem State.sysStep_bank (s : State) : (s.sysStep).bank = s.bank := rfl
@[simp] theorem State.sysStep_ax1 (s : State) : (s.sysStep).ax1 = s.ax1 := rfl
@[simp] theorem State.sysStep_ax2 (s : State) : (s.sysStep).ax2 = s.ax2 := rfl
@[simp] theorem State.sysStep_calls (s : State) : (s.sysStep).calls = s.calls := rfl
@[simp] theorem State.sysStep_hpRdata (s : State) : (s.sysStep).hpRdata = s.hpRdata := rfl
@[simp] theorem State.sysStep_seq (s : State) : (s.sysStep).seq = s.seq := rfl
@[simp] theorem State.sysStep_sv (s : State) :
    (s.sysStep).sv = ⟨s.cfg.deviceId, s.cfg.fwVersion, systemStatusOf s.ax1.s s.ax2.s,
      systemErrorOf s.ax1.s s.ax2.s, consumedRequest s.rr s.sv.rsterr, s.sv.baud, s.sv.parity⟩ := rfl
@[simp] theorem State.sysStep_mv (s : State) : (s.sysStep).mv = s.mv := rfl
@[simp] theorem State.sysStep_rr (s : State) : (s.sysStep).rr = s.rr := rfl
@[simp] theorem State.sysStep_heldTicks (s : State) : (s.sysStep).heldTicks = s.heldTicks := rfl
@[simp] theorem State.sysStep_loc (s : State) : (s.sysStep).loc = s.loc := rfl
@[simp] theorem State.sysStep_draws (s : State) : (s.sysStep).draws = s.draws := rfl
@[simp] theorem State.sysStep_sched (s : State) : (s.sysStep).sched = s.sched := rfl

/-! ### RESET (R240) -/

@[simp] theorem State.doReset_cfg (s : State) : (s.doReset).cfg = s.cfg := by
  simp only [State.doReset]
@[simp] theorem State.doReset_bank (s : State) :
    (s.doReset).bank = Bank.initial s.cfg := by
  simp only [State.doReset]
@[simp] theorem State.doReset_ax1 (s : State) :
    (s.doReset).ax1 = AxisState.initial s.cfg .one s.ax1.oc := by
  simp only [State.doReset]
@[simp] theorem State.doReset_ax2 (s : State) :
    (s.doReset).ax2 = AxisState.initial s.cfg .two s.ax2.oc := by
  simp only [State.doReset]
@[simp] theorem State.doReset_calls (s : State) : (s.doReset).calls = s.calls := by
  simp only [State.doReset]
@[simp] theorem State.doReset_hpRdata (s : State) : (s.doReset).hpRdata = s.hpRdata := by
  simp only [State.doReset]
@[simp] theorem State.doReset_seq (s : State) :
    (s.doReset).seq = none := by
  simp only [State.doReset]
@[simp] theorem State.doReset_sv (s : State) : (s.doReset).sv = s.sv := by
  simp only [State.doReset]
@[simp] theorem State.doReset_mv (s : State) : (s.doReset).mv = s.mv := by
  simp only [State.doReset]
@[simp] theorem State.doReset_rr (s : State) : (s.doReset).rr = s.rr := by
  simp only [State.doReset]
@[simp] theorem State.doReset_heldTicks (s : State) :
    (s.doReset).heldTicks = 0 := by
  simp only [State.doReset]
@[simp] theorem State.doReset_loc (s : State) : (s.doReset).loc = s.loc := by
  simp only [State.doReset]
@[simp] theorem State.doReset_draws (s : State) : (s.doReset).draws = s.draws := by
  simp only [State.doReset]
@[simp] theorem State.doReset_sched (s : State) : (s.doReset).sched = s.sched := by
  simp only [State.doReset]

/-! ### The strobes low at the start of a step (R43) -/

@[simp] theorem State.quiet_cfg (s : State) : (s.quiet).cfg = s.cfg := rfl
@[simp] theorem State.quiet_bank (s : State) : (s.quiet).bank = s.bank := rfl
@[simp] theorem State.quiet_ax1 (s : State) :
    (s.quiet).ax1 = { s.ax1 with out.stb := false } := rfl
@[simp] theorem State.quiet_ax2 (s : State) :
    (s.quiet).ax2 = { s.ax2 with out.stb := false } := rfl
@[simp] theorem State.quiet_calls (s : State) : (s.quiet).calls = s.calls := rfl
@[simp] theorem State.quiet_hpRdata (s : State) : (s.quiet).hpRdata = s.hpRdata := rfl
@[simp] theorem State.quiet_seq (s : State) : (s.quiet).seq = s.seq := rfl
@[simp] theorem State.quiet_sv (s : State) : (s.quiet).sv = s.sv := rfl
@[simp] theorem State.quiet_mv (s : State) : (s.quiet).mv = s.mv := rfl
@[simp] theorem State.quiet_rr (s : State) : (s.quiet).rr = s.rr := rfl
@[simp] theorem State.quiet_heldTicks (s : State) : (s.quiet).heldTicks = s.heldTicks := rfl
@[simp] theorem State.quiet_loc (s : State) : (s.quiet).loc = s.loc := rfl
@[simp] theorem State.quiet_draws (s : State) : (s.quiet).draws = s.draws := rfl
@[simp] theorem State.quiet_sched (s : State) : (s.quiet).sched = s.sched := rfl

/-! ### Putting back what an M_STEP writes (R139) -/

@[simp] theorem State.putEnv_cfg (s : State) (k : Axis) (e : Env) : (s.putEnv k e).cfg = s.cfg := by
  cases k <;> rfl
@[simp] theorem State.putEnv_bank (s : State) (k : Axis) (e : Env) : (s.putEnv k e).bank = s.bank := by
  cases k <;> rfl
@[simp] theorem State.putEnv_calls (s : State) (k : Axis) (e : Env) :
    (s.putEnv k e).calls = e.calls := by
  cases k <;> rfl
@[simp] theorem State.putEnv_hpRdata (s : State) (k : Axis) (e : Env) : (s.putEnv k e).hpRdata = s.hpRdata := by
  cases k <;> rfl
@[simp] theorem State.putEnv_seq (s : State) (k : Axis) (e : Env) : (s.putEnv k e).seq = s.seq := by
  cases k <;> rfl
@[simp] theorem State.putEnv_sv (s : State) (k : Axis) (e : Env) : (s.putEnv k e).sv = s.sv := by
  cases k <;> rfl
@[simp] theorem State.putEnv_mv (s : State) (k : Axis) (e : Env) :
    (s.putEnv k e).mv = e.mv := by
  cases k <;> rfl
@[simp] theorem State.putEnv_rr (s : State) (k : Axis) (e : Env) : (s.putEnv k e).rr = s.rr := by
  cases k <;> rfl
@[simp] theorem State.putEnv_heldTicks (s : State) (k : Axis) (e : Env) : (s.putEnv k e).heldTicks = s.heldTicks := by
  cases k <;> rfl
@[simp] theorem State.putEnv_loc (s : State) (k : Axis) (e : Env) :
    (s.putEnv k e).loc = e.loc := by
  cases k <;> rfl
@[simp] theorem State.putEnv_draws (s : State) (k : Axis) (e : Env) : (s.putEnv k e).draws = s.draws := by
  cases k <;> rfl
@[simp] theorem State.putEnv_sched (s : State) (k : Axis) (e : Env) : (s.putEnv k e).sched = s.sched := by
  cases k <;> rfl

/-! ### SET_OC (R123) -/

@[simp] theorem State.setOvercurrent_cfg (s : State) (k : Axis) (l : Bool) : (s.setOvercurrent k l).cfg = s.cfg := by
  cases k <;> rfl
@[simp] theorem State.setOvercurrent_bank (s : State) (k : Axis) (l : Bool) : (s.setOvercurrent k l).bank = s.bank := by
  cases k <;> rfl
@[simp] theorem State.setOvercurrent_calls (s : State) (k : Axis) (l : Bool) : (s.setOvercurrent k l).calls = s.calls := by
  cases k <;> rfl
@[simp] theorem State.setOvercurrent_hpRdata (s : State) (k : Axis) (l : Bool) : (s.setOvercurrent k l).hpRdata = s.hpRdata := by
  cases k <;> rfl
@[simp] theorem State.setOvercurrent_seq (s : State) (k : Axis) (l : Bool) : (s.setOvercurrent k l).seq = s.seq := by
  cases k <;> rfl
@[simp] theorem State.setOvercurrent_sv (s : State) (k : Axis) (l : Bool) : (s.setOvercurrent k l).sv = s.sv := by
  cases k <;> rfl
@[simp] theorem State.setOvercurrent_mv (s : State) (k : Axis) (l : Bool) : (s.setOvercurrent k l).mv = s.mv := by
  cases k <;> rfl
@[simp] theorem State.setOvercurrent_rr (s : State) (k : Axis) (l : Bool) : (s.setOvercurrent k l).rr = s.rr := by
  cases k <;> rfl
@[simp] theorem State.setOvercurrent_heldTicks (s : State) (k : Axis) (l : Bool) : (s.setOvercurrent k l).heldTicks = s.heldTicks := by
  cases k <;> rfl
@[simp] theorem State.setOvercurrent_loc (s : State) (k : Axis) (l : Bool) : (s.setOvercurrent k l).loc = s.loc := by
  cases k <;> rfl
@[simp] theorem State.setOvercurrent_draws (s : State) (k : Axis) (l : Bool) : (s.setOvercurrent k l).draws = s.draws := by
  cases k <;> rfl
@[simp] theorem State.setOvercurrent_sched (s : State) (k : Axis) (l : Bool) : (s.setOvercurrent k l).sched = s.sched := by
  cases k <;> rfl

/-! ### M_STEP (R180) -/

@[simp] theorem State.mStep_cfg (s : State) (k : Axis) : (s.mStep k).cfg = s.cfg := by
  simp only [State.mStep, State.putEnv_cfg]
@[simp] theorem State.mStep_bank (s : State) (k : Axis) : (s.mStep k).bank = s.bank := by
  simp only [State.mStep, State.putEnv_bank]
@[simp] theorem State.mStep_calls (s : State) (k : Axis) :
    (s.mStep k).calls = ({ s.env k with loc.axis := k }.mStep).calls := by
  simp only [State.mStep, State.putEnv_calls]
@[simp] theorem State.mStep_hpRdata (s : State) (k : Axis) : (s.mStep k).hpRdata = s.hpRdata := by
  simp only [State.mStep, State.putEnv_hpRdata]
@[simp] theorem State.mStep_seq (s : State) (k : Axis) : (s.mStep k).seq = s.seq := by
  simp only [State.mStep, State.putEnv_seq]
@[simp] theorem State.mStep_sv (s : State) (k : Axis) : (s.mStep k).sv = s.sv := by
  simp only [State.mStep, State.putEnv_sv]
@[simp] theorem State.mStep_mv (s : State) (k : Axis) :
    (s.mStep k).mv = ({ s.env k with loc.axis := k }.mStep).mv := by
  simp only [State.mStep, State.putEnv_mv]
@[simp] theorem State.mStep_rr (s : State) (k : Axis) : (s.mStep k).rr = s.rr := by
  simp only [State.mStep, State.putEnv_rr]
@[simp] theorem State.mStep_heldTicks (s : State) (k : Axis) : (s.mStep k).heldTicks = s.heldTicks := by
  simp only [State.mStep, State.putEnv_heldTicks]
@[simp] theorem State.mStep_loc (s : State) (k : Axis) : (s.mStep k).loc = s.loc := by
  simp only [State.mStep]
@[simp] theorem State.mStep_draws (s : State) (k : Axis) : (s.mStep k).draws = s.draws := by
  simp only [State.mStep, State.putEnv_draws]
@[simp] theorem State.mStep_sched (s : State) (k : Axis) : (s.mStep k).sched = s.sched := by
  simp only [State.mStep, State.putEnv_sched]

/-! ### TICK (R130) -/

@[simp] theorem State.tick_cfg (s : State) : (s.tick).cfg = s.cfg := by
  unfold State.tick; split <;> rfl
@[simp] theorem State.tick_bank (s : State) : (s.tick).bank = s.bank := by
  unfold State.tick; split <;> rfl
@[simp] theorem State.tick_ax1 (s : State) : (s.tick).ax1 = s.ax1 := by
  unfold State.tick; split <;> rfl
@[simp] theorem State.tick_ax2 (s : State) : (s.tick).ax2 = s.ax2 := by
  unfold State.tick; split <;> rfl
@[simp] theorem State.tick_calls (s : State) : (s.tick).calls = s.calls := by
  unfold State.tick; split <;> rfl
@[simp] theorem State.tick_hpRdata (s : State) : (s.tick).hpRdata = s.hpRdata := by
  unfold State.tick; split <;> rfl
@[simp] theorem State.tick_sv (s : State) : (s.tick).sv = s.sv := by
  unfold State.tick; split <;> rfl
@[simp] theorem State.tick_mv (s : State) : (s.tick).mv = s.mv := by
  unfold State.tick; split <;> rfl
@[simp] theorem State.tick_rr (s : State) : (s.tick).rr = s.rr := by
  unfold State.tick; split <;> rfl
@[simp] theorem State.tick_loc (s : State) : (s.tick).loc = s.loc := by
  unfold State.tick; split <;> rfl
@[simp] theorem State.tick_draws (s : State) : (s.tick).draws = s.draws := by
  unfold State.tick; split <;> rfl
@[simp] theorem State.tick_sched (s : State) : (s.tick).sched = s.sched := by
  unfold State.tick; split <;> rfl

/-! ### The start of a held TICK (R130, R137) -/

@[simp] theorem State.startHeld_cfg (s : State) : (s.startHeld).cfg = s.cfg := by
  unfold State.startHeld; split <;> rfl
@[simp] theorem State.startHeld_bank (s : State) : (s.startHeld).bank = s.bank := by
  unfold State.startHeld; split <;> rfl
@[simp] theorem State.startHeld_ax1 (s : State) : (s.startHeld).ax1 = s.ax1 := by
  unfold State.startHeld; split <;> rfl
@[simp] theorem State.startHeld_ax2 (s : State) : (s.startHeld).ax2 = s.ax2 := by
  unfold State.startHeld; split <;> rfl
@[simp] theorem State.startHeld_calls (s : State) : (s.startHeld).calls = s.calls := by
  unfold State.startHeld; split <;> rfl
@[simp] theorem State.startHeld_hpRdata (s : State) : (s.startHeld).hpRdata = s.hpRdata := by
  unfold State.startHeld; split <;> rfl
@[simp] theorem State.startHeld_sv (s : State) : (s.startHeld).sv = s.sv := by
  unfold State.startHeld; split <;> rfl
@[simp] theorem State.startHeld_mv (s : State) : (s.startHeld).mv = s.mv := by
  unfold State.startHeld; split <;> rfl
@[simp] theorem State.startHeld_rr (s : State) : (s.startHeld).rr = s.rr := by
  unfold State.startHeld; split <;> rfl
@[simp] theorem State.startHeld_loc (s : State) : (s.startHeld).loc = s.loc := by
  unfold State.startHeld; split <;> rfl
@[simp] theorem State.startHeld_draws (s : State) : (s.startHeld).draws = s.draws := by
  unfold State.startHeld; split <;> rfl
@[simp] theorem State.startHeld_sched (s : State) : (s.startHeld).sched = s.sched := by
  unfold State.startHeld; split <;> rfl

/-! ### What an M_STEP sees (R139) -/

@[simp] theorem State.env_cfg (s : State) (k : Axis) : (s.env k).cfg = s.cfg := rfl
@[simp] theorem State.env_ax (s : State) (k : Axis) : (s.env k).ax = s.ax k := rfl
@[simp] theorem State.env_mv (s : State) (k : Axis) : (s.env k).mv = s.mv := rfl
@[simp] theorem State.env_rr (s : State) (k : Axis) : (s.env k).rr = s.rr := rfl
@[simp] theorem State.env_loc (s : State) (k : Axis) : (s.env k).loc = s.loc := rfl
@[simp] theorem State.env_calls (s : State) (k : Axis) : (s.env k).calls = s.calls := rfl

/-- The axis put back. -/
@[simp] theorem State.putEnv_ax (s : State) (k : Axis) (e : Env) : (s.putEnv k e).ax k = e.ax := by
  cases k <;> rfl

/-- The axis after an M_STEP. -/
@[simp] theorem State.mStep_ax (s : State) (k : Axis) :
    (s.mStep k).ax k = ({ s.env k with loc.axis := k }.mStep).ax := by
  have h : (s.mStep k).ax k = (s.putEnv k { s.env k with loc.axis := k }.mStep).ax k := by
    cases k <;> simp only [State.mStep, State.ax]
  rw [h, State.putEnv_ax]

/-- An M_STEP leaves the other axis alone. -/
theorem State.mStep_ax_of_ne (s : State) {k l : Axis} (h : l ≠ k) : (s.mStep k).ax l = s.ax l := by
  cases k <;> cases l <;> first
    | exact absurd rfl h
    | simp only [State.mStep, State.ax, State.putEnv, State.setAx]

/-! ### The bank through the state -/

/-- The byte of a cell after a store. -/
theorem State.cell_store (s : State) (a v x : Byte) :
    (s.store a v).cell x = if x = a then some v else s.cell x := by
  simp only [State.cell, State.store_bank, Bank.read_write, BitVec.toNat_inj]

/-- A read of a written cell. -/
theorem State.byteAt_of_cell {s : State} {a b : Byte} (h : s.cell a = some b) : s.byteAt a = b := by
  simp [State.byteAt, h]

/-- A read of a written cell draws no free byte. -/
theorem State.drawsAfter_of_cell {s : State} {a b : Byte} (h : s.cell a = some b) :
    s.drawsAfter a = s.draws := by
  simp [State.drawsAfter, h]

/-- A read of a cell holding ⊥ gives the next free byte. -/
theorem State.byteAt_of_none {s : State} {a : Byte} (h : s.cell a = none) :
    s.byteAt a = Config.freeByte s.draws := by
  simp [State.byteAt, h]

/-- A read of a cell holding ⊥ draws one free byte. -/
theorem State.drawsAfter_of_none {s : State} {a : Byte} (h : s.cell a = none) :
    s.drawsAfter a = s.draws + 1 := by
  simp [State.drawsAfter, h]

end Sys2Proof.Machine
end

