-- ==== Sys2Proof/Laws/Env.lean ====
section
/-! SUPPORT. What each phase of an M_STEP can do: for each, the record it answers, in cases where the phase has
cases. -/

namespace Sys2Proof.Machine

/-- P1 (R181). -/
theorem Env.dirSanitize_eq (e : Env) :
    e.dirSanitize = { e with ax.s.dirEff := (directionOf e.mv.dir).getD e.ax.s.dirEff } := by
  unfold Env.dirSanitize
  split <;> simp_all

/-- P3 clears (R183). -/
theorem Env.resetError_clears {e : Env} (h : e.ax.s.mst = .faulted) (hr : e.rr = true) (he : e.mv.en ≠ 1) :
    e.resetError = e.clearError := by
  unfold Env.resetError isEnabled
  rw [if_pos ⟨h, hr, decide_eq_false he⟩]

/-- P3 does nothing (R183). -/
theorem Env.resetError_keeps {e : Env} (h : ¬ (e.ax.s.mst = .faulted ∧ e.rr = true ∧ e.mv.en ≠ 1)) :
    e.resetError = e := by
  unfold Env.resetError isEnabled
  rw [if_neg fun hc => h ⟨hc.1, hc.2.1, of_decide_eq_false hc.2.2⟩]

/-- The state an image asks for, by its Enable and Control_Mode bytes (R184). -/
theorem requestedMst_eq (v : MotorView) :
    requestedMst v = if v.en = 1 ∧ v.cm = 1 then .onOffActive
      else if v.en = 1 ∧ v.cm = 2 then .rampActive else .disabled := by
  by_cases h1 : v.en = 1
  · by_cases h2 : v.cm = 1
    · simp only [requestedMst, isEnabled, selectedMode, h1, h2, decide_true, if_true, and_self]
    · by_cases h3 : v.cm = 2
      · have h21 : ¬ (2 : Byte) = 1 := by decide
        simp only [requestedMst, isEnabled, selectedMode, h1, h3, h21, decide_true, if_true, if_false,
          and_self, and_false]
      · simp only [requestedMst, isEnabled, selectedMode, h1, h2, h3, decide_true, if_false, and_false]
  · simp only [requestedMst, isEnabled, h1, decide_false, false_and, if_false]

/-- The state an image asks for is never FAULTED (R184). -/
theorem requestedMst_ne_faulted (v : MotorView) : requestedMst v ≠ .faulted := by
  rw [requestedMst_eq]
  split
  · exact nofun
  · split <;> exact nofun

/-- P4 with no change of state (R184). -/
theorem Env.select_same {e : Env} (h : e.ax.s.mst = .faulted ∨ requestedMst e.mv = e.ax.s.mst) :
    e.select = e := by
  unfold Env.select
  rw [if_neg]
  rintro ⟨h1, h2⟩
  exact h.elim h1 h2

/-- P4 with a change of state (R184). -/
theorem Env.select_changes {e : Env} (h : e.ax.s.mst ≠ .faulted) (hn : requestedMst e.mv ≠ e.ax.s.mst) :
    e.select = e.transition (requestedMst e.mv) := by
  unfold Env.select
  rw [if_pos ⟨h, hn⟩]

/-- TRANSITION into an inactive state or ON_OFF_ACTIVE (R185). -/
theorem Env.transition_plain (e : Env) {new : Mst} (h : new ≠ .rampActive) :
    e.transition new = { e with
      ax.s.mst := new, ax.s.stallCnt := 0, ax.s.done := false
      ax.m := Motion.atRest (e.cfg.distance e.loc.axis) } := by
  simp [Env.transition, Env.msReset, h]

/-- TRANSITION into RAMP_ACTIVE with legal limits (R185). -/
theorem Env.transition_ramp {e : Env} (h : limitsOk e.mv = true) :
    e.transition .rampActive = { e with
      ax.s.mst := .rampActive, ax.s.stallCnt := 0, ax.s.done := false
      ax.m := Motion.rampStart e.cfg e.loc.axis e.mv, loc.ok := true } := by
  simp [Env.transition, Env.rampInit, h]

/-- TRANSITION toward RAMP_ACTIVE with a zero limit latches CONFIG (R185, R216). -/
theorem Env.transition_config {e : Env} (h : limitsOk e.mv = false) :
    e.transition .rampActive = { e with
      ax.s.mst := .faulted, ax.s.err := 4, ax.s.stallCnt := 0, ax.s.done := false
      ax.m := Motion.atRest (e.cfg.distance e.loc.axis), loc.ok := false } := by
  simp [Env.transition, Env.rampInit, Env.latchFault, Env.msReset, FaultCode.byte, h]

/-- The limits are accepted exactly when none is 0 (R152). -/
theorem limitsOk_iff (v : MotorView) : limitsOk v = true ↔ v.vmax ≠ 0 ∧ v.amax ≠ 0 ∧ v.jmax ≠ 0 := by
  simp [limitsOk, and_assoc]

/-- P4 with no change of state (R184). -/
theorem Env.modeSelect_same {e : Env} (h : e.ax.s.mst = .faulted ∨ requestedMst e.mv = e.ax.s.mst) :
    e.modeSelect = { e with loc.entered := false } := by
  simp [Env.modeSelect, Env.select_same h]

/-- P4 into DISABLED or ON_OFF_ACTIVE (R184, R185). -/
theorem Env.modeSelect_plain {e : Env} (h : e.ax.s.mst ≠ .faulted)
    (hn : requestedMst e.mv ≠ e.ax.s.mst) (hr : requestedMst e.mv ≠ .rampActive) :
    e.modeSelect = { e with
      ax.s.mst := requestedMst e.mv, ax.s.stallCnt := 0, ax.s.done := false
      ax.m := Motion.atRest (e.cfg.distance e.loc.axis), loc.entered := true } := by
  simp [Env.modeSelect, Env.select_changes h hn, Env.transition_plain e hr, hn]

/-- P4 into RAMP_ACTIVE with legal limits (R184, R185). -/
theorem Env.modeSelect_ramp {e : Env} (h : e.ax.s.mst ≠ .faulted) (hn : e.ax.s.mst ≠ .rampActive)
    (hr : requestedMst e.mv = .rampActive) (hl : limitsOk e.mv = true) :
    e.modeSelect = { e with
      ax.s.mst := .rampActive, ax.s.stallCnt := 0, ax.s.done := false
      ax.m := Motion.rampStart e.cfg e.loc.axis e.mv, loc.ok := true, loc.entered := true } := by
  have hne : requestedMst e.mv ≠ e.ax.s.mst := by rw [hr]; exact Ne.symm hn
  simp [Env.modeSelect, Env.select_changes h hne, hr, Env.transition_ramp hl, Ne.symm hn]

/-- P4 toward RAMP_ACTIVE with a zero limit (R185, R216). -/
theorem Env.modeSelect_config {e : Env} (h : e.ax.s.mst ≠ .faulted) (hn : e.ax.s.mst ≠ .rampActive)
    (hr : requestedMst e.mv = .rampActive) (hl : limitsOk e.mv = false) :
    e.modeSelect = { e with
      ax.s.mst := .faulted, ax.s.err := 4, ax.s.stallCnt := 0, ax.s.done := false
      ax.m := Motion.atRest (e.cfg.distance e.loc.axis), loc.ok := false, loc.entered := true } := by
  have hne : requestedMst e.mv ≠ e.ax.s.mst := by rw [hr]; exact Ne.symm hn
  simp [Env.modeSelect, Env.select_changes h hne, hr, Env.transition_config hl, Ne.symm h]

/-- FAULT_LATCH (R214). -/
theorem Env.latchFault_eq (e : Env) (c : FaultCode) :
    e.latchFault c = { e with
      ax.s.err := c.byte, ax.s.mst := .faulted, ax.s.stallCnt := 0, ax.s.done := false
      ax.m := Motion.atRest (e.cfg.distance e.loc.axis) } := rfl

/-- CHECK_ERROR with a cause (R212). -/
theorem Env.checkError_latches {e : Env} {c : FaultCode}
    (h : detectedFault e.ax.oc e.loc.rangeBad (countStall e.ax.s.stallCnt e.loc.speed e.loc.cmdEff)
      e.cfg.stallTicks = some c) :
    e.checkError = { e with
      loc.code := c, ax.s.err := c.byte, ax.s.mst := .faulted, ax.s.stallCnt := 0
      ax.s.done := false, ax.m := Motion.atRest (e.cfg.distance e.loc.axis) } := by
  simp [Env.checkError, h, Env.latchFault_eq]

/-- CHECK_ERROR with no cause only counts (R212). -/
theorem Env.checkError_counts {e : Env}
    (h : detectedFault e.ax.oc e.loc.rangeBad (countStall e.ax.s.stallCnt e.loc.speed e.loc.cmdEff)
      e.cfg.stallTicks = none) :
    e.checkError =
      { e with ax.s.stallCnt := countStall e.ax.s.stallCnt e.loc.speed e.loc.cmdEff } := by
  simp [Env.checkError, h]

/-- The profile that HANDLE_RAMP hands to UPDATE: the position restarts on a material change (R187). -/
theorem Env.retargetIfMaterial_eq (e : Env) :
    e.retargetIfMaterial = { e with ax.m := e.retargetIfMaterial.ax.m } := by
  unfold Env.retargetIfMaterial Env.retarget
  split <;> rfl

/-- What HANDLE_RAMP writes, given the profile it ends with (R187). -/
def Env.rampResult (e : Env) (vreq : F32) (m : Motion) (done : Bool) (speed : Byte) : Env :=
  { e with ax.m := m, ax.s.done := done, loc.vreq := vreq, loc.updDone := done, loc.speed := speed }

/-- HANDLE_RAMP writes the profile, `done` and three locals (R187). -/
theorem Env.handleRamp_eq (e : Env) :
    e.handleRamp = e.rampResult (requestedVelocity e.cfg e.loc.cmdEff)
      (e.retargetIfMaterial.ax.m.update (requestedVelocity e.cfg e.loc.cmdEff))
      ((e.retargetIfMaterial.ax.m.update (requestedVelocity e.cfg e.loc.cmdEff)).arrived e.cfg)
      (speedOfVelocity e.cfg e.mv.maxs
        (e.retargetIfMaterial.ax.m.update (requestedVelocity e.cfg e.loc.cmdEff)).v) := by
  have key : ∀ (f : Env) (upd : Motion → F32 → Motion) (arr : Cfg → Motion → Bool)
      (req : Cfg → Byte → F32) (spd : Cfg → Byte → F32 → Byte), f = { e with ax.m := f.ax.m } →
      (let g : Env := { f with loc.vreq := req f.cfg f.loc.cmdEff }
       let m := upd g.ax.m g.loc.vreq
       let h : Env := { g with ax.m := m, loc.updDone := arr g.cfg m }
       ({ h with ax.s.done := h.loc.updDone, loc.speed := spd h.cfg h.mv.maxs h.ax.m.v } : Env)) =
      e.rampResult (req e.cfg e.loc.cmdEff) (upd f.ax.m (req e.cfg e.loc.cmdEff))
        (arr e.cfg (upd f.ax.m (req e.cfg e.loc.cmdEff)))
        (spd e.cfg e.mv.maxs (upd f.ax.m (req e.cfg e.loc.cmdEff)).v) := by
    intro f upd arr req spd hf
    rw [hf]
    rfl
  unfold Env.handleRamp Env.update
  exact key _ Motion.update Motion.arrived requestedVelocity speedOfVelocity e.retargetIfMaterial_eq

/-! ### The frame of M_STEP, phase by phase -/

/-- The parts of an M_STEP's view that no phase before the actuation changes. -/
structure Env.SameFrame (e f : Env) : Prop where
  cfg : f.cfg = e.cfg
  mv : f.mv = e.mv
  rr : f.rr = e.rr
  calls : f.calls = e.calls
  axis : f.loc.axis = e.loc.axis
  oc : f.ax.oc = e.ax.oc
  out : f.ax.out = e.ax.out
  sw : f.ax.s.sw = e.ax.s.sw

theorem Env.SameFrame.refl (e : Env) : e.SameFrame e := ⟨rfl, rfl, rfl, rfl, rfl, rfl, rfl, rfl⟩

theorem Env.SameFrame.trans {e f g : Env} (h : e.SameFrame f) (h' : f.SameFrame g) : e.SameFrame g :=
  ⟨h'.cfg.trans h.cfg, h'.mv.trans h.mv, h'.rr.trans h.rr, h'.calls.trans h.calls,
    h'.axis.trans h.axis, h'.oc.trans h.oc, h'.out.trans h.out, h'.sw.trans h.sw⟩

theorem Env.dirSanitize_frame (e : Env) : e.SameFrame e.dirSanitize := by
  rw [Env.dirSanitize_eq]; exact ⟨rfl, rfl, rfl, rfl, rfl, rfl, rfl, rfl⟩

theorem Env.cmdClamp_frame (e : Env) : e.SameFrame e.cmdClamp := ⟨rfl, rfl, rfl, rfl, rfl, rfl, rfl, rfl⟩

theorem Env.clearError_frame (e : Env) : e.SameFrame e.clearError := ⟨rfl, rfl, rfl, rfl, rfl, rfl, rfl, rfl⟩

theorem Env.resetError_frame (e : Env) : e.SameFrame e.resetError := by
  unfold Env.resetError
  split
  · exact e.clearError_frame
  · exact .refl e

theorem Env.transition_frame (e : Env) (new : Mst) : e.SameFrame (e.transition new) := by
  by_cases h : new = .rampActive
  · subst h
    cases hl : limitsOk e.mv
    · rw [Env.transition_config hl]; exact ⟨rfl, rfl, rfl, rfl, rfl, rfl, rfl, rfl⟩
    · rw [Env.transition_ramp hl]; exact ⟨rfl, rfl, rfl, rfl, rfl, rfl, rfl, rfl⟩
  · rw [Env.transition_plain e h]; exact ⟨rfl, rfl, rfl, rfl, rfl, rfl, rfl, rfl⟩

theorem Env.modeSelect_frame (e : Env) : e.SameFrame e.modeSelect := by
  have h : e.SameFrame e.select := by
    by_cases hc : e.ax.s.mst = .faulted ∨ requestedMst e.mv = e.ax.s.mst
    · rw [Env.select_same hc]; exact .refl e
    · rw [not_or] at hc
      rw [Env.select_changes hc.1 hc.2]; exact e.transition_frame _
  exact ⟨h.cfg, h.mv, h.rr, h.calls, h.axis, h.oc, h.out, h.sw⟩

theorem Env.rampResult_frame (e : Env) (vreq : F32) (m : Motion) (done : Bool) (speed : Byte) :
    e.SameFrame (e.rampResult vreq m done speed) :=
  ⟨rfl, rfl, rfl, rfl, rfl, rfl, rfl, rfl⟩

theorem Env.handle_frame (e : Env) : e.SameFrame e.handle := by
  unfold Env.handle
  split
  · exact ⟨rfl, rfl, rfl, rfl, rfl, rfl, rfl, rfl⟩
  · exact ⟨rfl, rfl, rfl, rfl, rfl, rfl, rfl, rfl⟩
  · rw [Env.handleRamp_eq]; exact e.rampResult_frame _ _ _ _
  · exact ⟨rfl, rfl, rfl, rfl, rfl, rfl, rfl, rfl⟩

theorem Env.checkError_frame (e : Env) : e.SameFrame e.checkError := by
  cases h : detectedFault e.ax.oc e.loc.rangeBad
    (countStall e.ax.s.stallCnt e.loc.speed e.loc.cmdEff) e.cfg.stallTicks with
  | none => rw [Env.checkError_counts h]; exact ⟨rfl, rfl, rfl, rfl, rfl, rfl, rfl, rfl⟩
  | some c => rw [Env.checkError_latches h]; exact ⟨rfl, rfl, rfl, rfl, rfl, rfl, rfl, rfl⟩

theorem Env.monitor_frame (e : Env) : e.SameFrame e.monitor := by
  unfold Env.monitor
  split
  · exact e.checkError_frame
  · exact .refl e

end Sys2Proof.Machine
end

