-- ==== Sys2Proof/Laws/Params.lean ====
section
/-! SUPPORT. What a well-formed configuration gives (R8): the places of the three spans, and the addresses of
their bytes as numbers. -/

namespace Sys2Proof

/-- An 8-bit address plus an offset inside its span does not wrap. -/
theorem byte_add_toNat (a : Byte) {i n : Nat} (h : a.toNat + n ≤ 255) (hi : i ≤ n) :
    (a + BitVec.ofNat 8 i).toNat = a.toNat + i := by
  rw [BitVec.toNat_add, BitVec.toNat_ofNat]
  omega

/-- R8 (i): the spans lie in 0..255 and are pairwise disjoint. -/
theorem Cfg.spans_of_wf {c : Cfg} (h : c.WF = true) :
    c.baseSys.toNat + 6 ≤ 255 ∧ c.baseM1.toNat + 13 ≤ 255 ∧ c.baseM2.toNat + 13 ≤ 255 ∧
      (c.baseSys.toNat + 7 ≤ c.baseM1.toNat ∨ c.baseM1.toNat + 14 ≤ c.baseSys.toNat) ∧
      (c.baseSys.toNat + 7 ≤ c.baseM2.toNat ∨ c.baseM2.toNat + 14 ≤ c.baseSys.toNat) ∧
      (c.baseM1.toNat + 14 ≤ c.baseM2.toNat ∨ c.baseM2.toNat + 14 ≤ c.baseM1.toNat) := by
  rw [Cfg.WF, Bool.and_eq_true] at h
  have h := h.1
  simp only [Cfg.spansOk, spansDisjoint, Bool.and_eq_true, Bool.or_eq_true, decide_eq_true_eq] at h
  tauto

/-- The address of a SystemView byte (R37). -/
theorem Cfg.sysAddr_toNat {c : Cfg} (h : c.WF = true) {i : Nat} (hi : i < 7) :
    (c.sysAddr i).toNat = c.baseSys.toNat + i :=
  byte_add_toNat _ (Cfg.spans_of_wf h).1 (by omega)

/-- The address of a MotorView byte (R33). -/
theorem Cfg.motorAddr_toNat {c : Cfg} (h : c.WF = true) (k : Axis) {i : Nat} (hi : i < 14) :
    (c.motorAddr k i).toNat = (c.motorBase k).toNat + i := by
  have hs := Cfg.spans_of_wf h
  cases k
  · exact byte_add_toNat _ hs.2.1 (by omega)
  · exact byte_add_toNat _ hs.2.2.1 (by omega)

/-- Two bytes of one MotorView have different addresses. -/
theorem Cfg.motorAddr_inj {c : Cfg} (h : c.WF = true) (k : Axis) {i j : Nat} (hi : i < 14) (hj : j < 14)
    (he : c.motorAddr k i = c.motorAddr k j) : i = j := by
  have := congrArg BitVec.toNat he
  rw [Cfg.motorAddr_toNat h k hi, Cfg.motorAddr_toNat h k hj] at this
  omega

/-- The stall threshold is at least 1 and fits the counter (R7, R8 (v)). -/
theorem Cfg.stallTicks_of_wf {c : Cfg} (h : c.WF = true) :
    1 ≤ c.stallTicks ∧ c.stallTicks ≤ 2 ^ 32 - 1 := by
  rw [Cfg.WF, Bool.and_eq_true] at h
  have h := h.2
  simp only [Cfg.valuesOk, Bool.and_eq_true, decide_eq_true_eq] at h
  tauto

end Sys2Proof
end

