-- ==== Sys2Proof/Laws/Initial.lean ====
section
/-! SUPPORT. The bank that RESET leaves (R240, R242, R243): its cells and its canonical form. -/

namespace Sys2Proof.Machine

/-- Every cell of the bank that RESET leaves. -/
theorem Bank.read_initial (c : Cfg) (x : Nat) :
    Bank.read (Bank.initial c) x =
      if c.baseM2.toNat ≤ x ∧ x < c.baseM2.toNat + 14 then
        (MotorView.initial c).image[x - c.baseM2.toNat]?
      else if c.baseM1.toNat ≤ x ∧ x < c.baseM1.toNat + 14 then
        (MotorView.initial c).image[x - c.baseM1.toNat]?
      else if c.baseSys.toNat ≤ x ∧ x < c.baseSys.toNat + 7 then
        (SysView.initial c).image[x - c.baseSys.toNat]?
      else none := by
  unfold Bank.initial
  dsimp only
  rw [Bank.read_writeAll, Bank.read_writeAll, Bank.read_writeAll]
  rfl

/-- The MotorView cells of the bank that RESET leaves (R243). -/
theorem Bank.read_initial_motor {c : Cfg} (h : c.WF = true) (k : Axis) {i : Nat} (hi : i < 14) :
    Bank.read (Bank.initial c) (c.motorAddr k i).toNat = (MotorView.initial c).image[i]? := by
  obtain ⟨h1, h2, h3, h4, h5, h6⟩ := Cfg.spans_of_wf h
  cases k
  · have e : (c.motorAddr .one i).toNat = c.baseM1.toNat + i := Cfg.motorAddr_toNat h .one hi
    rw [Bank.read_initial, e, if_neg (by omega), if_pos (by omega)]
    congr 1
    omega
  · have e : (c.motorAddr .two i).toNat = c.baseM2.toNat + i := Cfg.motorAddr_toNat h .two hi
    rw [Bank.read_initial, e, if_pos (by omega)]
    congr 1
    omega

/-- The SystemView cells of the bank that RESET leaves (R242). -/
theorem Bank.read_initial_sys {c : Cfg} (h : c.WF = true) {i : Nat} (hi : i < 7) :
    Bank.read (Bank.initial c) (c.sysAddr i).toNat = (SysView.initial c).image[i]? := by
  obtain ⟨h1, h2, h3, h4, h5, h6⟩ := Cfg.spans_of_wf h
  rw [Bank.read_initial, Cfg.sysAddr_toNat h hi, if_neg (by omega), if_neg (by omega),
    if_pos (by omega)]
  congr 1
  omega

/-- The bank that RESET leaves is in canonical form. -/
theorem Bank.wf_initial {c : Cfg} (h : c.WF = true) : Bank.wf (Bank.initial c) = true := by
  obtain ⟨h1, h2, h3, -, -, -⟩ := Cfg.spans_of_wf h
  have hm : (MotorView.initial c).image.length = 14 := rfl
  have hs : (SysView.initial c).image.length = 7 := rfl
  unfold Bank.initial
  exact Bank.wf_writeAll (Bank.wf_writeAll (Bank.wf_writeAll Bank.wf_nil _ _ (by omega)) _ _ (by omega)) _
    _ (by omega)

/-- The bank of the reset state is in canonical form. -/
theorem State.reset_bank_wf : Bank.wf State.reset.bank = true := by decide

/-- Every operation that stores keeps the canonical form (R122, R134, R136). -/
theorem State.store_bank_wf {s : State} (h : Bank.wf s.bank = true) (a v : Byte) :
    Bank.wf (s.store a v).bank = true := Bank.wf_write h a v

end Sys2Proof.Machine
end

