-- ==== Sys2Proof/Laws/MStep.lean ====
section
/-! SUPPORT. What an M_STEP can do (R180), in two halves: the phases P1 to P4, by cases on the state of the axis
and the request of the image, and the phases after the handler, by the state and the fault found. -/

namespace Sys2Proof.Machine

/-- The phases P1 to P4. -/
def Env.front (e : Env) : Env := e.dirSanitize.cmdClamp.resetError.modeSelect

/-- The phases after the handler of P5. -/
def Env.tail (e : Env) : Env := e.recordCommand.setDuty.actuate.monitor.status.writeback

/-- An M_STEP is P1 to P4, the handler, and the rest. -/
theorem Env.mStep_eq (e : Env) : e.mStep = e.front.handle.tail := rfl

/-- What an M_STEP of an axis sees after it has put back a view with the same configuration and request. -/
theorem State.env_putEnv {s : State} {k : Axis} {e : Env} (hc : e.cfg = s.cfg) (hr : e.rr = s.rr) :
    (s.putEnv k e).env k = e := by
  cases e; cases hc; cases hr; cases k <;> rfl

/-- The last view put back is the one that counts. -/
theorem State.putEnv_putEnv (s : State) (k : Axis) (e f : Env) :
    (s.putEnv k e).putEnv k f = s.putEnv k f := by cases k <;> rfl

/-- A sub-operation after another on the axis of the locals. -/
theorem State.onLocals_putEnv {s : State} {k : Axis} {e : Env} (f : Env → Env) (hc : e.cfg = s.cfg)
    (hr : e.rr = s.rr) (hk : e.loc.axis = k) : (s.putEnv k e).onLocals f = s.putEnv k (f e) := by
  have h : (s.putEnv k e).loc.axis = k := by rw [State.putEnv_loc, hk]
  rw [State.onLocals, h, State.env_putEnv hc hr, State.putEnv_putEnv]

/-- P1 to P4 keep the frame. -/
theorem Env.front_frame (e : Env) : e.SameFrame e.front :=
  ((e.dirSanitize_frame.trans (Env.cmdClamp_frame _)).trans (Env.resetError_frame _)).trans
    (Env.modeSelect_frame _)

/-- Everything P4 can do (R184, R185). -/
theorem Env.modeSelect_cases (e : Env) :
    ((e.ax.s.mst = .faulted ∨ requestedMst e.mv = e.ax.s.mst) ∧
        e.modeSelect = { e with loc.entered := false }) ∨
      (e.ax.s.mst ≠ .faulted ∧ requestedMst e.mv ≠ e.ax.s.mst ∧ requestedMst e.mv ≠ .rampActive ∧
        e.modeSelect = { e with
          ax.s.mst := requestedMst e.mv, ax.s.stallCnt := 0, ax.s.done := false
          ax.m := Motion.atRest (e.cfg.distance e.loc.axis), loc.entered := true }) ∨
      (e.ax.s.mst ≠ .faulted ∧ e.ax.s.mst ≠ .rampActive ∧ requestedMst e.mv = .rampActive ∧
        limitsOk e.mv = true ∧ e.modeSelect = { e with
          ax.s.mst := .rampActive, ax.s.stallCnt := 0, ax.s.done := false
          ax.m := Motion.rampStart e.cfg e.loc.axis e.mv, loc.ok := true, loc.entered := true }) ∨
      (e.ax.s.mst ≠ .faulted ∧ e.ax.s.mst ≠ .rampActive ∧ requestedMst e.mv = .rampActive ∧
        limitsOk e.mv = false ∧ e.modeSelect = { e with
          ax.s.mst := .faulted, ax.s.err := 4, ax.s.stallCnt := 0, ax.s.done := false
          ax.m := Motion.atRest (e.cfg.distance e.loc.axis), loc.ok := false, loc.entered := true }) := by
  by_cases h : e.ax.s.mst = .faulted ∨ requestedMst e.mv = e.ax.s.mst
  · exact .inl ⟨h, Env.modeSelect_same h⟩
  · rw [not_or] at h
    by_cases hr : requestedMst e.mv = .rampActive
    · have hn : e.ax.s.mst ≠ .rampActive := fun hc => h.2 (hr.trans hc.symm)
      cases hl : limitsOk e.mv
      · exact .inr (.inr (.inr ⟨h.1, hn, hr, rfl, Env.modeSelect_config h.1 hn hr hl⟩))
      · exact .inr (.inr (.inl ⟨h.1, hn, hr, rfl, Env.modeSelect_ramp h.1 hn hr hl⟩))
    · exact .inr (.inl ⟨h.1, h.2, hr, Env.modeSelect_plain h.1 h.2 hr⟩)

/-- What P3 and P4 keep besides the frame. -/
structure Env.SameCommand (e f : Env) : Prop where
  cmd : f.loc.cmdEff = e.loc.cmdEff
  range : f.loc.rangeBad = e.loc.rangeBad
  dir : f.ax.s.dirEff = e.ax.s.dirEff
  prev : f.ax.s.prevCmd = e.ax.s.prevCmd

theorem Env.resetError_command (e : Env) : e.SameCommand e.resetError := by
  unfold Env.resetError
  split <;> exact ⟨rfl, rfl, rfl, rfl⟩

theorem Env.modeSelect_command (e : Env) : e.SameCommand e.modeSelect := by
  rcases e.modeSelect_cases with ⟨-, h⟩ | ⟨-, -, -, h⟩ | ⟨-, -, -, -, h⟩ | ⟨-, -, -, -, h⟩ <;> rw [h] <;>
    exact ⟨rfl, rfl, rfl, rfl⟩

/-- The effective command after P4 is P2's (R182). -/
theorem Env.front_cmdEff (e : Env) : e.front.loc.cmdEff = effectiveCommand e.mv := by
  unfold Env.front
  rw [(Env.modeSelect_command _).cmd, (Env.resetError_command _).cmd]
  simp only [Env.cmdClamp, (Env.dirSanitize_frame e).mv]

/-- The range flag after P4 is P2's (R182). -/
theorem Env.front_rangeBad (e : Env) : e.front.loc.rangeBad = rangeIsBad e.mv := by
  unfold Env.front
  rw [(Env.modeSelect_command _).range, (Env.resetError_command _).range]
  simp only [Env.cmdClamp, (Env.dirSanitize_frame e).mv]

/-- The effective direction after P4 is P1's (R181). -/
theorem Env.front_dirEff (e : Env) :
    e.front.ax.s.dirEff = (directionOf e.mv.dir).getD e.ax.s.dirEff := by
  unfold Env.front
  rw [(Env.modeSelect_command _).dir, (Env.resetError_command _).dir, Env.dirSanitize_eq]
  rfl

/-- The previous command is not touched before the end of P5. -/
theorem Env.front_prevCmd (e : Env) : e.front.ax.s.prevCmd = e.ax.s.prevCmd := by
  unfold Env.front
  rw [(Env.modeSelect_command _).prev, (Env.resetError_command _).prev, Env.dirSanitize_eq]
  rfl

/-- The part of an axis that P3 and P4 decide, spelt out. -/
def AxisState.Decides (a : AxisState) (mst : Mst) (err : Byte) (cnt : BitVec 32) (done : Bool) (m : Motion) :
    Prop :=
  a.s.mst = mst ∧ a.s.err = err ∧ a.s.stallCnt = cnt ∧ a.s.done = done ∧ a.m = m

/-- Everything P1 to P4 can do to the state of the axis (R183, R184, R185): a cleared fault, no change, a plain
change, an entry of RAMP_ACTIVE, or the CONFIG fault. -/
theorem Env.front_cases (e : Env) :
    (e.ax.s.mst = .faulted ∧ e.rr = true ∧ e.mv.en ≠ 1 ∧
        e.front.ax.Decides .disabled 0 0 e.ax.s.done e.ax.m) ∨
      (¬ (e.ax.s.mst = .faulted ∧ e.rr = true ∧ e.mv.en ≠ 1) ∧
        (e.ax.s.mst = .faulted ∨ requestedMst e.mv = e.ax.s.mst) ∧ e.front.loc.entered = false ∧
        e.front.ax.Decides e.ax.s.mst e.ax.s.err e.ax.s.stallCnt e.ax.s.done e.ax.m) ∨
      (e.ax.s.mst ≠ .faulted ∧ requestedMst e.mv ≠ e.ax.s.mst ∧ requestedMst e.mv ≠ .rampActive ∧
        e.front.ax.Decides (requestedMst e.mv) e.ax.s.err 0 false
          (Motion.atRest (e.cfg.distance e.loc.axis))) ∨
      (e.ax.s.mst ≠ .faulted ∧ e.ax.s.mst ≠ .rampActive ∧ requestedMst e.mv = .rampActive ∧
        limitsOk e.mv = true ∧ e.front.loc.entered = true ∧
        e.front.ax.Decides .rampActive e.ax.s.err 0 false (Motion.rampStart e.cfg e.loc.axis e.mv)) ∨
      (e.ax.s.mst ≠ .faulted ∧ e.ax.s.mst ≠ .rampActive ∧ requestedMst e.mv = .rampActive ∧
        limitsOk e.mv = false ∧
        e.front.ax.Decides .faulted 4 0 false (Motion.atRest (e.cfg.distance e.loc.axis))) := by
  unfold Env.front AxisState.Decides
  have hf := e.dirSanitize_frame.trans (Env.cmdClamp_frame _)
  have hs : e.dirSanitize.cmdClamp.ax.s.mst = e.ax.s.mst ∧ e.dirSanitize.cmdClamp.ax.s.err = e.ax.s.err ∧
      e.dirSanitize.cmdClamp.ax.s.stallCnt = e.ax.s.stallCnt ∧
      e.dirSanitize.cmdClamp.ax.s.done = e.ax.s.done ∧ e.dirSanitize.cmdClamp.ax.m = e.ax.m := by
    rw [Env.dirSanitize_eq]; exact ⟨rfl, rfl, rfl, rfl, rfl⟩
  generalize e.dirSanitize.cmdClamp = f at *
  obtain ⟨h1, h2, h3, h4, h5⟩ := hs
  rw [← h1, ← h2, ← h3, ← h4, ← h5, ← hf.mv, ← hf.rr, ← hf.cfg, ← hf.axis]
  by_cases hcl : f.ax.s.mst = .faulted ∧ f.rr = true ∧ f.mv.en ≠ 1
  · left
    obtain ⟨a, b, c⟩ := hcl
    rw [Env.resetError_clears a b c]
    have hreq : requestedMst f.mv = .disabled := by
      rw [requestedMst_eq, if_neg fun h => c h.1, if_neg fun h => c h.1]
    rw [Env.modeSelect_same (e := f.clearError) (.inr hreq)]
    exact ⟨a, b, c, rfl, rfl, rfl, rfl, rfl⟩
  · right
    rw [Env.resetError_keeps hcl]
    rcases f.modeSelect_cases with ⟨h, e⟩ | ⟨a, b, c, e⟩ | ⟨a, b, c, d, e⟩ | ⟨a, b, c, d, e⟩ <;> rw [e]
    · exact .inl ⟨hcl, h, rfl, rfl, rfl, rfl, rfl, rfl⟩
    · exact .inr (.inl ⟨a, b, c, rfl, rfl, rfl, rfl, rfl⟩)
    · exact .inr (.inr (.inl ⟨a, b, c, d, rfl, rfl, rfl, rfl, rfl, rfl⟩))
    · exact .inr (.inr (.inr ⟨a, b, c, d, rfl, rfl, rfl, rfl, rfl⟩))

/-- The handler of an inactive state (R188). -/
theorem Env.handle_inactive {e : Env} (h : e.ax.s.mst.active = false) :
    e.handle = { e with loc.speed := 0, ax.s.done := false } := by
  unfold Env.handle
  split <;> rename_i hm
  · rfl
  · rw [hm] at h; exact absurd h (by decide)
  · rw [hm] at h; exact absurd h (by decide)
  · rfl

/-- The handler of ON_OFF_ACTIVE (R186). -/
theorem Env.handle_onOff {e : Env} (h : e.ax.s.mst = .onOffActive) :
    e.handle = { e with loc.speed := e.loc.cmdEff, ax.s.done := false } := by
  simp only [Env.handle, h, Env.handleOnOff]

/-- The handler of RAMP_ACTIVE (R187). -/
theorem Env.handle_ramp {e : Env} (h : e.ax.s.mst = .rampActive) : e.handle = e.handleRamp := by
  simp only [Env.handle, h]

/-- What no handler changes besides the frame (R186, R187, R188). -/
structure Env.SameMode (e f : Env) : Prop extends e.SameCommand f where
  mst : f.ax.s.mst = e.ax.s.mst
  err : f.ax.s.err = e.ax.s.err
  cnt : f.ax.s.stallCnt = e.ax.s.stallCnt

theorem Env.rampResult_mode (e : Env) (vreq : F32) (m : Motion) (done : Bool) (speed : Byte) :
    e.SameMode (e.rampResult vreq m done speed) :=
  ⟨⟨rfl, rfl, rfl, rfl⟩, rfl, rfl, rfl⟩

theorem Env.handle_mode (e : Env) : e.SameMode e.handle := by
  unfold Env.handle
  split
  · exact ⟨⟨rfl, rfl, rfl, rfl⟩, rfl, rfl, rfl⟩
  · exact ⟨⟨rfl, rfl, rfl, rfl⟩, rfl, rfl, rfl⟩
  · rw [Env.handleRamp_eq]; exact e.rampResult_mode _ _ _ _
  · exact ⟨⟨rfl, rfl, rfl, rfl⟩, rfl, rfl, rfl⟩

/-- The end of an M_STEP with the duty, the direction and what the handler left: `cnt`, `mst`, `err`, `done` and
`m` are what the fault monitor left. -/
def Env.finish (e : Env) (duty : BitVec 7) (code : FaultCode) (mst : Mst) (err : Byte) (cnt : BitVec 32)
    (done : Bool) (m : Motion) : Env :=
  { e with
    ax := {
      s := {
        mst := mst, err := err, dirEff := e.ax.s.dirEff, stallCnt := cnt, prevCmd := e.loc.cmdEff
        done := done, sw := statusWordOf mst e.loc.speed e.loc.cmdEff }
      m := m
      out := { duty := duty, dir := e.ax.s.dirEff, stb := true, done := done }
      oc := e.ax.oc }
    mv.as := e.loc.speed
    mv.sw := statusWordOf mst e.loc.speed e.loc.cmdEff
    mv.ec := err
    loc.duty := duty
    loc.code := code
    loc.sw := statusWordOf mst e.loc.speed e.loc.cmdEff
    calls := e.calls ++ [⟨e.loc.axis, duty, e.ax.s.dirEff⟩] }

/-- The end of an M_STEP of an inactive axis: no fault check (R191). -/
theorem Env.tail_inactive {e : Env} (h : e.ax.s.mst.active = false) :
    e.tail = e.finish 0 e.loc.code e.ax.s.mst e.ax.s.err e.ax.s.stallCnt e.ax.s.done e.ax.m := by
  simp only [Env.tail, Env.finish, Env.recordCommand, Env.setDuty, Env.actuate, dutyOf_zero (.inl h),
    Env.monitor, h, Env.status, Env.writeback]
  rfl

/-- The end of an M_STEP of an active axis with no fault (R212). -/
theorem Env.tail_active {e : Env} (h : e.ax.s.mst.active = true)
    (hd : detectedFault e.ax.oc e.loc.rangeBad (countStall e.ax.s.stallCnt e.loc.speed e.loc.cmdEff)
      e.cfg.stallTicks = none) :
    e.tail = e.finish (dutyOf e.ax.s.mst e.loc.speed e.mv.maxs) e.loc.code e.ax.s.mst e.ax.s.err
      (countStall e.ax.s.stallCnt e.loc.speed e.loc.cmdEff) e.ax.s.done e.ax.m := by
  simp only [Env.tail, Env.finish, Env.recordCommand, Env.setDuty, Env.actuate]
  generalize dutyOf e.ax.s.mst e.loc.speed e.mv.maxs = du
  simp only [Env.monitor, h, if_true]
  rw [Env.checkError_counts (by exact hd)]
  simp only [Env.status, Env.writeback]

/-- The end of an M_STEP of an active axis that latches a fault (R212, R214). -/
theorem Env.tail_fault {e : Env} (h : e.ax.s.mst.active = true) {c : FaultCode}
    (hd : detectedFault e.ax.oc e.loc.rangeBad (countStall e.ax.s.stallCnt e.loc.speed e.loc.cmdEff)
      e.cfg.stallTicks = some c) :
    e.tail = e.finish (dutyOf e.ax.s.mst e.loc.speed e.mv.maxs) c .faulted c.byte 0 false
      (Motion.atRest (e.cfg.distance e.loc.axis)) := by
  simp only [Env.tail, Env.finish, Env.recordCommand, Env.setDuty, Env.actuate]
  generalize dutyOf e.ax.s.mst e.loc.speed e.mv.maxs = du
  simp only [Env.monitor, h, if_true]
  rw [Env.checkError_latches (by exact hd)]
  simp only [Env.status, Env.writeback]

/-- The end of an M_STEP is always of this form. -/
theorem Env.tail_eq_finish (e : Env) : ∃ code mst err cnt done m,
    e.tail = e.finish (dutyOf e.ax.s.mst e.loc.speed e.mv.maxs) code mst err cnt done m := by
  cases h : e.ax.s.mst.active
  · exact ⟨_, _, _, _, _, _, by rw [Env.tail_inactive h, dutyOf_zero (.inl h)]⟩
  · cases hd : detectedFault e.ax.oc e.loc.rangeBad
      (countStall e.ax.s.stallCnt e.loc.speed e.loc.cmdEff) e.cfg.stallTicks with
    | none => exact ⟨_, _, _, _, _, _, Env.tail_active h hd⟩
    | some c => exact ⟨_, _, _, _, _, _, Env.tail_fault h hd⟩

/-- The stall counter as a number (R212). -/
theorem countStall_toNat (cnt : BitVec 32) (speed cmdEff : Byte) :
    (countStall cnt speed cmdEff).toNat =
      if speed = cmdEff then 0 else min (cnt.toNat + 1) (2 ^ 32 - 1) := by
  unfold countStall
  split
  · rfl
  · rw [BitVec.toNat_ofNat]; omega

/-- With no cause present nothing is detected (R212). -/
theorem detectedFault_none {oc bad : Bool} {cnt : BitVec 32} {n : Nat} (ho : oc = false) (hb : bad = false)
    (hc : cnt.toNat < n) : detectedFault oc bad cnt n = none := by
  rw [detectedFault, ho, hb, if_neg nofun, if_neg nofun, if_neg (by omega)]

end Sys2Proof.Machine
end

