-- ==== Sys2Proof/Laws/PerInstr.lean ====
section
/-! SUPPORT. One lemma per operation: its word has the fixed fields of its row of spec/opcode_table.json, whatever
its operands. -/

namespace Sys2Proof.Laws.MatchesItsRow

/-- The fixed fields (hi, lo, value) of an operation's row of spec/opcode_table.json. -/
def fixedFields : Instr → List (Nat × Nat × Nat)
  | .nop => [(31, 0, 0x0)]
  | .hostRd _ => [(7, 0, 0x0), (31, 16, 0x1000)]
  | .hostWr _ _ => [(31, 16, 0x2000)]
  | .tick => [(31, 0, 0x30000000)]
  | .reset => [(31, 0, 0x40000000)]
  | .setOc _ _ => [(7, 0, 0x0), (15, 9, 0x0), (31, 17, 0x2800)]
  | .sysLoad _ => [(15, 4, 0x100)]
  | .mLoad _ _ => [(7, 4, 0x0), (15, 9, 0x10)]
  | .mStep _ => [(7, 0, 0x0), (15, 9, 0x18)]
  | .mSave _ _ => [(7, 4, 0x0), (15, 9, 0x20)]
  | .sysStep => [(15, 0, 0x5000)]
  | .sysSave _ => [(15, 4, 0x600)]
  | .tickEnd => [(15, 0, 0x7000)]
  | .p1DirSanitize => [(7, 0, 0xA1)]
  | .p2CmdClamp => [(7, 0, 0xA2)]
  | .p3ResetError => [(7, 0, 0xA3)]
  | .p4ModeSelect => [(7, 0, 0xA4)]
  | .p5HandleOnOff => [(7, 0, 0xA5)]
  | .p5HandleRamp => [(7, 0, 0xA6)]
  | .p5HandleIdle => [(7, 0, 0xA7)]
  | .p6Duty => [(7, 0, 0xA8)]
  | .p6Actuate => [(7, 0, 0xA9)]
  | .p8Status => [(7, 0, 0xAA)]
  | .p9Writeback => [(7, 0, 0xAB)]
  | .rampInit => [(7, 0, 0xB0)]
  | .msReset => [(7, 0, 0xB1)]
  | .retarget => [(7, 0, 0xB2)]
  | .update => [(7, 0, 0xB3)]
  | .checkError => [(7, 0, 0xC0)]
  | .faultLatch => [(7, 0, 0xC1)]
  | .clearError => [(7, 0, 0xC2)]
  | .controlMode _ _ => [(3, 0, 0x0)]
  | .enable _ _ => [(3, 0, 0x1)]
  | .commandSpeed _ _ => [(3, 0, 0x2)]
  | .actualSpeed _ _ => [(3, 0, 0x3)]
  | .direction _ _ => [(3, 0, 0x4)]
  | .maxSpeed _ _ => [(3, 0, 0x5)]
  | .minSpeed _ _ => [(3, 0, 0x6)]
  | .vmax _ _ => [(3, 0, 0x7)]
  | .amax _ _ => [(3, 0, 0x8)]
  | .jmax _ _ => [(3, 0, 0x9)]
  | .maxAcc _ _ => [(3, 0, 0xA)]
  | .maxDec _ _ => [(3, 0, 0xB)]
  | .statusWord _ _ => [(3, 0, 0xC)]
  | .errorCode _ _ => [(3, 0, 0xD)]
  | .deviceId _ => [(2, 0, 0x0)]
  | .firmwareVersion _ => [(2, 0, 0x1)]
  | .systemStatus _ => [(2, 0, 0x2)]
  | .systemError _ => [(2, 0, 0x3)]
  | .resetErrorCommand _ => [(2, 0, 0x4)]
  | .configBaudrate _ => [(2, 0, 0x5)]
  | .configParity _ => [(2, 0, 0x6)]

/-- The word of an operation has the fixed fields of its row. -/
def Statement (i : Instr) : Prop := ∀ f ∈ fixedFields i, field (encode i).toNat f.1 f.2.1 = f.2.2

/-- A field word of a MotorView has its offset in bits 3..0 (R98). -/
theorem mreg_offset (off : Nat) (h : off < 16) (k : Axis) (acc : Access) :
    field (BitVec.ofNat 32 (mregWord off k acc)).toNat 3 0 = off := by
  obtain ⟨w, d, hw, hd, he⟩ := acc.bits_cases
  have hk := k.bit_lt
  simp only [mregWord, he, BitVec.toNat_ofNat, field]
  omega

/-- A field word of the SystemView has its offset in bits 2..0 (R98). -/
theorem sreg_offset (off : Nat) (h : off < 8) (acc : Access) :
    field (BitVec.ofNat 32 (sregWord off acc)).toNat 2 0 = off := by
  obtain ⟨w, d, hw, hd, he⟩ := acc.bits_cases
  simp only [sregWord, he, BitVec.toNat_ofNat, field]
  omega

/-- A statement about one fixed field. -/
theorem of_one {i : Instr} {f : Nat × Nat × Nat} (h : fixedFields i = [f])
    (hf : field (encode i).toNat f.1 f.2.1 = f.2.2) : Statement i := by
  intro g hg
  rw [h, List.mem_singleton] at hg
  rw [hg]
  exact hf

theorem nop : Statement .nop := by
  intro f hf; revert f; decide

theorem hostRd (addr : Byte) : Statement (.hostRd addr) := by
  intro f hf; revert f; revert addr; decide

theorem hostWr (addr : Byte) (data : Byte) : Statement (.hostWr addr data) := by
  intro f hf
  have ha := addr.isLt
  have hd := data.isLt
  simp only [fixedFields, List.mem_singleton] at hf
  subst hf
  simp only [encode, encodeNat, BitVec.toNat_ofNat, field]
  omega

theorem tick : Statement .tick := by
  intro f hf; revert f; decide

theorem reset : Statement .reset := by
  intro f hf; revert f; decide

theorem setOc (k : Axis) (level : Bool) : Statement (.setOc k level) := by
  intro f hf; revert f; cases k <;> cases level <;> decide

theorem sysLoad (i : BitVec 4) : Statement (.sysLoad i) := by
  intro f hf; revert f; revert i; decide

theorem mLoad (k : Axis) (i : BitVec 4) : Statement (.mLoad k i) := by
  intro f hf; revert f; revert i; cases k <;> decide

theorem mStep (k : Axis) : Statement (.mStep k) := by
  intro f hf; revert f; cases k <;> decide

theorem mSave (k : Axis) (i : BitVec 4) : Statement (.mSave k i) := by
  intro f hf; revert f; revert i; cases k <;> decide

theorem sysStep : Statement .sysStep := by
  intro f hf; revert f; decide

theorem sysSave (i : BitVec 4) : Statement (.sysSave i) := by
  intro f hf; revert f; revert i; decide

theorem tickEnd : Statement .tickEnd := by
  intro f hf; revert f; decide

theorem p1DirSanitize : Statement .p1DirSanitize := by
  intro f hf; revert f; decide

theorem p2CmdClamp : Statement .p2CmdClamp := by
  intro f hf; revert f; decide

theorem p3ResetError : Statement .p3ResetError := by
  intro f hf; revert f; decide

theorem p4ModeSelect : Statement .p4ModeSelect := by
  intro f hf; revert f; decide

theorem p5HandleOnOff : Statement .p5HandleOnOff := by
  intro f hf; revert f; decide

theorem p5HandleRamp : Statement .p5HandleRamp := by
  intro f hf; revert f; decide

theorem p5HandleIdle : Statement .p5HandleIdle := by
  intro f hf; revert f; decide

theorem p6Duty : Statement .p6Duty := by
  intro f hf; revert f; decide

theorem p6Actuate : Statement .p6Actuate := by
  intro f hf; revert f; decide

theorem p8Status : Statement .p8Status := by
  intro f hf; revert f; decide

theorem p9Writeback : Statement .p9Writeback := by
  intro f hf; revert f; decide

theorem rampInit : Statement .rampInit := by
  intro f hf; revert f; decide

theorem msReset : Statement .msReset := by
  intro f hf; revert f; decide

theorem retarget : Statement .retarget := by
  intro f hf; revert f; decide

theorem update : Statement .update := by
  intro f hf; revert f; decide

theorem checkError : Statement .checkError := by
  intro f hf; revert f; decide

theorem faultLatch : Statement .faultLatch := by
  intro f hf; revert f; decide

theorem clearError : Statement .clearError := by
  intro f hf; revert f; decide

theorem controlMode (k : Axis) (acc : Access) : Statement (.controlMode k acc) :=
  of_one rfl (mreg_offset 0 (by decide) k acc)

theorem enable (k : Axis) (acc : Access) : Statement (.enable k acc) :=
  of_one rfl (mreg_offset 1 (by decide) k acc)

theorem commandSpeed (k : Axis) (acc : Access) : Statement (.commandSpeed k acc) :=
  of_one rfl (mreg_offset 2 (by decide) k acc)

theorem actualSpeed (k : Axis) (acc : Access) : Statement (.actualSpeed k acc) :=
  of_one rfl (mreg_offset 3 (by decide) k acc)

theorem direction (k : Axis) (acc : Access) : Statement (.direction k acc) :=
  of_one rfl (mreg_offset 4 (by decide) k acc)

theorem maxSpeed (k : Axis) (acc : Access) : Statement (.maxSpeed k acc) :=
  of_one rfl (mreg_offset 5 (by decide) k acc)

theorem minSpeed (k : Axis) (acc : Access) : Statement (.minSpeed k acc) :=
  of_one rfl (mreg_offset 6 (by decide) k acc)

theorem vmax (k : Axis) (acc : Access) : Statement (.vmax k acc) :=
  of_one rfl (mreg_offset 7 (by decide) k acc)

theorem amax (k : Axis) (acc : Access) : Statement (.amax k acc) :=
  of_one rfl (mreg_offset 8 (by decide) k acc)

theorem jmax (k : Axis) (acc : Access) : Statement (.jmax k acc) :=
  of_one rfl (mreg_offset 9 (by decide) k acc)

theorem maxAcc (k : Axis) (acc : Access) : Statement (.maxAcc k acc) :=
  of_one rfl (mreg_offset 10 (by decide) k acc)

theorem maxDec (k : Axis) (acc : Access) : Statement (.maxDec k acc) :=
  of_one rfl (mreg_offset 11 (by decide) k acc)

theorem statusWord (k : Axis) (acc : Access) : Statement (.statusWord k acc) :=
  of_one rfl (mreg_offset 12 (by decide) k acc)

theorem errorCode (k : Axis) (acc : Access) : Statement (.errorCode k acc) :=
  of_one rfl (mreg_offset 13 (by decide) k acc)

theorem deviceId (acc : Access) : Statement (.deviceId acc) :=
  of_one rfl (sreg_offset 0 (by decide) acc)

theorem firmwareVersion (acc : Access) : Statement (.firmwareVersion acc) :=
  of_one rfl (sreg_offset 1 (by decide) acc)

theorem systemStatus (acc : Access) : Statement (.systemStatus acc) :=
  of_one rfl (sreg_offset 2 (by decide) acc)

theorem systemError (acc : Access) : Statement (.systemError acc) :=
  of_one rfl (sreg_offset 3 (by decide) acc)

theorem resetErrorCommand (acc : Access) : Statement (.resetErrorCommand acc) :=
  of_one rfl (sreg_offset 4 (by decide) acc)

theorem configBaudrate (acc : Access) : Statement (.configBaudrate acc) :=
  of_one rfl (sreg_offset 5 (by decide) acc)

theorem configParity (acc : Access) : Statement (.configParity acc) :=
  of_one rfl (sreg_offset 6 (by decide) acc)

end Sys2Proof.Laws.MatchesItsRow
end

