-- ==== Sys2Proof/Laws/Step.lean ====
section
/-! SUPPORT. Everything a step can do, said once: the inversions of `step` and of the steps of the agents, and
the principle by which a property is shown to hold after every step. -/

namespace Sys2Proof.Machine

/-- Everything a step that answers a next state has done: the core sequencer's step where nothing is scheduled,
else the step of the agent scheduled next. -/
theorem step_cases {s t : State} (h : step s = .next t) :
    s.cfg.WF = true ∧ ((s.sched = [] ∧ coreStep s.quiet = .next t) ∨
      ∃ ev rest, s.sched = ev :: rest ∧ agentStep ev { s.quiet with sched := rest } = .next t) := by
  unfold step stepBlock at h
  split at h
  · rename_i hwf
    refine ⟨hwf, ?_⟩
    split at h
    · rename_i hs; exact .inl ⟨hs, h⟩
    · rename_i ev rest hs; exact .inr ⟨ev, rest, hs, h⟩
  · cases h

/-- A step with nothing scheduled is the core sequencer's. -/
theorem step_of_sched_nil {s : State} (hwf : s.cfg.WF = true) (hs : s.sched = []) :
    step s = coreStep s.quiet := by
  simp only [step, stepBlock, hwf, hs, if_true]

/-- A step with an agent scheduled next is that agent's. -/
theorem step_of_sched_cons {s : State} {ev : Event} {rest : List Event} (hwf : s.cfg.WF = true)
    (hs : s.sched = ev :: rest) : step s = agentStep ev { s.quiet with sched := rest } := by
  simp only [step, stepBlock, hwf, hs, if_true]

/-- A word that runs has been decoded. -/
theorem runWord_cases {f : Format} {w : Word32} {r : Refusal} {s t : State} (h : runWord f w r s = .next t) :
    ∃ i, decode f w = .ok i ∧ exec i s = .next t := by
  unfold runWord at h
  split at h
  · exact ⟨_, ‹_›, h⟩
  · cases h

/-- Everything a step of the core sequencer can do. -/
theorem coreStep_cases {s t : State} (h : coreStep s = .next t) :
    (∃ w i u, s.seq = some w ∧ fetchUop w = .ok i ∧ exec i s = .next u ∧
        t = { u with seq := nextUop i }) ∨
      (s.seq = none ∧ t = s.startHeld) := by
  unfold coreStep at h
  split at h
  · rename_i w hw
    split at h
    · rename_i i hi
      cases hu : exec i s with
      | next u =>
        rw [hu] at h
        cases h
        exact .inl ⟨w, i, u, hw, hi, hu, rfl⟩
      | fault r => rw [hu] at h; cases h
      | refused r => rw [hu] at h; cases h
    · cases h
  · rename_i hn
    cases h
    exact .inr ⟨hn, rfl⟩

/-- A property that every operation of a port cycle keeps holds after the cycle. -/
theorem portCycle_keeps {P : State → Prop} {p : Pins} {s t : State}
    (hoc : ∀ s k l, P s → P (s.setOvercurrent k l))
    (hexec : ∀ i s t, i.format = .stim32 → P s → exec i s = .next t → P t) (hs : P s)
    (h : portCycle p s = .next t) : P t := by
  have one : ∀ (o : Host.Outcome State Fault Refusal) (b : Bool) (i : Instr), i.format = .stim32 →
      (∀ u, o = .next u → P u) →
      ∀ u, (if b = true then andThen o (exec i) else o) = .next u → P u := by
    intro o b i hi ho u hu
    cases b
    · exact ho u hu
    · simp only [if_true] at hu
      cases o with
      | next v => exact hexec i v u hi (ho v rfl) hu
      | fault f => cases hu
      | refused r => cases hu
  unfold portCycle at h
  split at h
  · cases h
  · refine one _ _ _ rfl (one _ _ _ rfl (one _ _ _ rfl ?_)) t h
    intro u hu
    have h2 := hoc _ .two p.oc2 (hoc s .one p.oc1 hs)
    split at hu
    · exact hexec .reset _ u rfl h2 hu
    · cases hu; exact h2

/-- A property holds after every step if the pieces of a step keep it: the strobes going low, the schedule
advancing, a SET_OC, a decoded operation that is no sub-operation, a sub-operation scheduled alone (a
property that excludes those has nothing to show), the sequencer's advance after a micro-op, and the start
of a held TICK.  `hformat` is the fact that a word decodes to an operation of its own encoding space. -/
theorem step_keeps {P : State → Prop} (hquiet : ∀ s, P s → P s.quiet)
    (hrest : ∀ s ev rest, s.sched = ev :: rest → P s → P { s with sched := rest })
    (hoc : ∀ s k l, P s → P (s.setOvercurrent k l))
    (hexec : ∀ i s t, i.format ≠ .subop8 → P s → exec i s = .next t → P t)
    (hsubop : ∀ i s₀ w rest s t, s₀.sched = .subop w :: rest → P s₀ → P s → exec i s = .next t → P t)
    (huop : ∀ i s t, i.format = .uop16 → P s → exec i s = .next t → P { t with seq := nextUop i })
    (hformat : ∀ f w i, decode f w = .ok i → i.format = f)
    (hheld : ∀ s, P s → P s.startHeld) {s t : State} (hs : P s) (h : step s = .next t) : P t := by
  have core : ∀ s t, P s → coreStep s = .next t → P t := by
    intro s t hs h
    rcases coreStep_cases h with ⟨w, i, u, -, hi, hu, rfl⟩ | ⟨-, rfl⟩
    · exact huop i s u (hformat _ _ _ hi) hs hu
    · exact hheld s hs
  have word : ∀ (f : Format) (w : Word32) (i : Instr) (s t : State), f ≠ .subop8 → decode f w = .ok i →
      P s → exec i s = .next t → P t :=
    fun f w i s t hf hi => hexec i s t fun hc => hf ((hformat f w i hi).symm.trans hc)
  obtain ⟨-, ⟨-, h⟩ | ⟨ev, rest, hev, h⟩⟩ := step_cases h
  · exact core _ _ (hquiet s hs) h
  · have hr := hrest s.quiet ev rest (by rw [State.quiet_sched, hev]) (hquiet s hs)
    cases ev with
    | stim w =>
      obtain ⟨i, hi, hx⟩ := runWord_cases h
      exact word .stim32 w i _ t (by decide) hi hr hx
    | pins p =>
      exact portCycle_keeps hoc (fun i s t hi => hexec i s t (by rw [hi]; decide)) hr h
    | mreg w =>
      obtain ⟨i, hi, hx⟩ := runWord_cases h
      exact word .mreg w i _ t (by decide) hi hr hx
    | sreg w =>
      obtain ⟨i, hi, hx⟩ := runWord_cases h
      exact word .sreg w i _ t (by decide) hi hr hx
    | subop w =>
      obtain ⟨i, -, hx⟩ := runWord_cases h
      exact hsubop i s w rest _ t hev hs hr hx
    | core => exact core _ _ hr h

/-- `NextWith` of an operation known to answer `t`. -/
theorem NextWith.of_eq {o : Host.Outcome State Fault Refusal} {t : State} {p : State → Prop}
    (h : o = .next t) (hp : p t) : NextWith o p := ⟨t, h, hp⟩

/-- `NextWith` of a next state is the property. -/
theorem nextWith_next {t : State} {p : State → Prop} : NextWith (.next t) p ↔ p t :=
  ⟨fun ⟨_, h, hp⟩ => by cases h; exact hp, fun hp => ⟨t, rfl, hp⟩⟩

/-- A run of one more step, for any machine. -/
theorem Core.run_succ_of_next {M : Host.Core} {x y : M.State} (n : Nat) (h : M.step x = .next y) :
    M.run (n + 1) x = M.run n y := by
  rw [Host.Core.run, h]

/-- A run of one more step of the block. -/
theorem run_succ_of_next {s t : State} (n : Nat) (h : step s = .next t) :
    Sys2Proof.core.run (n + 1) s = Sys2Proof.core.run n t :=
  Core.run_succ_of_next (M := Sys2Proof.core) n h

end Sys2Proof.Machine
end

