-- ==== Sys2Proof/Tests/Slice0.lean ====
section
/-! SUPPORT. Tests. Expected values are those of spec/95_test_vectors.md and of the rules' worked examples; each
theorem names its vector. The witnesses at the end show states and operands that meet the hypotheses of the
statements. -/

open Sys2Proof Sys2Proof.Machine

namespace Sys2Proof.Tests

/-! ### Helpers -/

/-- The outcome is a next state with a property. -/
def nextIs (o : Host.Outcome State Fault Refusal) (p : State → Bool) : Bool :=
  match o with
  | .next t => p t
  | .fault _ => false
  | .refused _ => false

/-- The outcome is a given refusal. -/
def refusedAs (o : Host.Outcome State Fault Refusal) (r : Refusal) : Bool :=
  match o with
  | .next _ => false
  | .fault _ => false
  | .refused q => decide (q = r)

/-- The default image with the first bytes of a test. -/
def img (cm en cmd dir : Byte) : MotorView :=
  { MotorView.initial Cfg.default with cm := cm, en := en, cmd := cmd, dir := dir }

/-- The reset state with an image loaded. -/
def ready (v : MotorView) : State := { State.reset with mv := v }

/-- The reset state with an agent's step scheduled. -/
def next (ev : Event) : State := { State.reset with sched := [ev] }

/-- A profile of V-U2: default limits, the given velocity and acceleration. -/
def profile (v a : Word32) : Motion :=
  { Motion.rampStart Cfg.default .one (MotorView.initial Cfg.default) with
    v := .ofBits v, a := .ofBits a }

/-- Axis 1 in RAMP_ACTIVE with a profile, and locals for a sub-operation. -/
def ramping (m : Motion) (l : Locals) : State :=
  { State.reset with ax1.s.mst := .rampActive, ax1.m := m, loc := l }

/-- Axis 1 FAULTED with OVERCURRENT. -/
def faulted (v : MotorView) (rr : Bool) : State :=
  { ready v with ax1.s.mst := .faulted, ax1.s.err := 3, rr := rr }

/-! ### Well-formedness: an ill-formed term for each check -/

theorem test_wf_sysLoad_refused : (Instr.sysLoad 9).WF = false := by decide
theorem test_wf_sysSave_refused : (Instr.sysSave 7).WF = false := by decide
theorem test_wf_mLoad_refused : (Instr.mLoad .one 14).WF = false := by decide
theorem test_wf_mSave_refused : (Instr.mSave .two 14).WF = false := by decide
theorem test_wf_legal : (Instr.sysLoad 6).WF && (Instr.sysSave 0).WF && (Instr.mLoad .two 13).WF &&
    (Instr.mSave .one 13).WF = true := by decide

/-- R8 (i): overlapping spans, and a span past 255, are ill formed; (v), (vi), (ii), (iv) likewise. -/
theorem test_wf_cfg : Cfg.default.WF = true ∧
    ({ Cfg.default with baseM1 := 0x06 } : Cfg).WF = false ∧
    ({ Cfg.default with baseM2 := 0xF3 } : Cfg).WF = false ∧
    ({ Cfg.default with stallTicks := 0 } : Cfg).WF = false ∧
    ({ Cfg.default with retargetDelta := 0 } : Cfg).WF = false ∧
    ({ Cfg.default with kv := .zero } : Cfg).WF = false ∧
    ({ Cfg.default with distance1 := .zero } : Cfg).WF = false ∧
    ({ Cfg.default with epsV := .inf false } : Cfg).WF = false := by decide

/-! ### Decoding: the word of every row, written out from the tables of R92, R96, R97, R98 -/

/-- STIM32 (R91, R92, V-E). -/
theorem test_decode_stim32 :
    decodeTableWord 32 0x00000000 = some .nop ∧
    decodeTableWord 32 0x10001500 = some (.hostRd 0x15) ∧
    decodeTableWord 32 0x20001101 = some (.hostWr 0x11 0x01) ∧
    decodeTableWord 32 0x20001296 = some (.hostWr 0x12 0x96) ∧
    decodeTableWord 32 0x30000000 = some .tick ∧
    decodeTableWord 32 0x40000000 = some .reset ∧
    decodeTableWord 32 0x50010000 = some (.setOc .one true) ∧
    decodeTableWord 32 0x50010100 = some (.setOc .two true) ∧
    decodeTableWord 32 0x50000000 = some (.setOc .one false) := by decide

/-- The refused stimulus words of V-E. -/
theorem test_decode_stim32_refused :
    decodeTableWord 32 0x60000000 = none ∧ decodeTableWord 32 0x10001501 = none ∧
    decodeTableWord 32 0x30000001 = none ∧ decodeTableWord 32 0x50000200 = none ∧
    decodeTableWord 32 0x20021101 = none ∧ decodeTableWord 32 0xF0000000 = none := by decide

/-- UOP16 (R95, R96, V-E). -/
theorem test_decode_uop16 :
    decodeTableWord 16 0x1004 = some (.sysLoad 4) ∧
    decodeTableWord 16 0x210D = some (.mLoad .two 13) ∧
    decodeTableWord 16 0x3000 = some (.mStep .one) ∧
    decodeTableWord 16 0x3100 = some (.mStep .two) ∧
    decodeTableWord 16 0x4003 = some (.mSave .one 3) ∧
    decodeTableWord 16 0x5000 = some .sysStep ∧
    decodeTableWord 16 0x6006 = some (.sysSave 6) ∧
    decodeTableWord 16 0x7000 = some .tickEnd := by decide

/-- The refused micro-op words of V-E, and an index, AXIS or reserved bit where R96 has 0. -/
theorem test_decode_uop16_refused :
    decodeTableWord 16 0x0000 = none ∧ decodeTableWord 16 0x8000 = none ∧
    decodeTableWord 16 0x1007 = none ∧ decodeTableWord 16 0x200E = none ∧
    decodeTableWord 16 0x400F = none ∧ decodeTableWord 16 0x6007 = none ∧
    decodeTableWord 16 0x3001 = none ∧ decodeTableWord 16 0x5100 = none ∧
    decodeTableWord 16 0x7010 = none ∧ decodeTableWord 16 0x2200 = none := by decide

/-- SUBOP8 (R97). -/
theorem test_decode_subop8 :
    decodeTableWord 8 0xA1 = some .p1DirSanitize ∧ decodeTableWord 8 0xA2 = some .p2CmdClamp ∧
    decodeTableWord 8 0xA3 = some .p3ResetError ∧ decodeTableWord 8 0xA4 = some .p4ModeSelect ∧
    decodeTableWord 8 0xA5 = some .p5HandleOnOff ∧ decodeTableWord 8 0xA6 = some .p5HandleRamp ∧
    decodeTableWord 8 0xA7 = some .p5HandleIdle ∧ decodeTableWord 8 0xA8 = some .p6Duty ∧
    decodeTableWord 8 0xA9 = some .p6Actuate ∧ decodeTableWord 8 0xAA = some .p8Status ∧
    decodeTableWord 8 0xAB = some .p9Writeback ∧ decodeTableWord 8 0xB0 = some .rampInit ∧
    decodeTableWord 8 0xB1 = some .msReset ∧ decodeTableWord 8 0xB2 = some .retarget ∧
    decodeTableWord 8 0xB3 = some .update ∧ decodeTableWord 8 0xC0 = some .checkError ∧
    decodeTableWord 8 0xC1 = some .faultLatch ∧ decodeTableWord 8 0xC2 = some .clearError ∧
    decodeTableWord 8 0xAC = none ∧ decodeTableWord 8 0xB4 = none ∧ decodeTableWord 8 0xC3 = none := by
  decide

/-- MREG (R98): the offsets of the MotorView, with the axis bit and a write of the model's form (log
entry 3). -/
theorem test_decode_mreg :
    decode .mreg 0x0 = .ok (.controlMode .one .rd) ∧ decode .mreg 0x1 = .ok (.enable .one .rd) ∧
    decode .mreg 0x2 = .ok (.commandSpeed .one .rd) ∧ decode .mreg 0x3 = .ok (.actualSpeed .one .rd) ∧
    decode .mreg 0x4 = .ok (.direction .one .rd) ∧ decode .mreg 0x5 = .ok (.maxSpeed .one .rd) ∧
    decode .mreg 0x6 = .ok (.minSpeed .one .rd) ∧ decode .mreg 0x7 = .ok (.vmax .one .rd) ∧
    decode .mreg 0x8 = .ok (.amax .one .rd) ∧ decode .mreg 0x9 = .ok (.jmax .one .rd) ∧
    decode .mreg 0xA = .ok (.maxAcc .one .rd) ∧ decode .mreg 0xB = .ok (.maxDec .one .rd) ∧
    decode .mreg 0xC = .ok (.statusWord .one .rd) ∧ decode .mreg 0xD = .ok (.errorCode .one .rd) ∧
    decode .mreg 0xE = .error .notInView ∧ decode .mreg 0xF = .error .notInView ∧
    decode .mreg 0x960302 = .ok (.commandSpeed .two (.wr 0x96)) ∧
    decode .mreg 0x960102 = .error .nonzeroField ∧ decode .mreg 0x12 = .error .nonzeroField ∧
    decode .mreg 0x000102 = .ok (.commandSpeed .two .rd) ∧
    decode .mreg 0x000302 = .ok (.commandSpeed .two (.wr 0)) := by decide

/-- SREG (R98): the offsets of the SystemView. -/
theorem test_decode_sreg :
    decodeTableWord 3 0 = some (.deviceId .rd) ∧ decodeTableWord 3 1 = some (.firmwareVersion .rd) ∧
    decodeTableWord 3 2 = some (.systemStatus .rd) ∧ decodeTableWord 3 3 = some (.systemError .rd) ∧
    decodeTableWord 3 4 = some (.resetErrorCommand .rd) ∧
    decodeTableWord 3 5 = some (.configBaudrate .rd) ∧ decodeTableWord 3 6 = some (.configParity .rd) ∧
    decodeTableWord 3 7 = none ∧ decode .sreg 0x10204 = .ok (.resetErrorCommand (.wr 1)) := by decide

/-- Pseudo-instructions (R103, V-E). -/
theorem test_pseudo :
    (Pseudo.enable .one).expand Cfg.default = [.hostWr 0x11 1] ∧
    (Pseudo.modeRamp .two).expand Cfg.default = [.hostWr 0x20 2] ∧
    Pseudo.clrerr.expand Cfg.default = [.hostWr 0x04 1] ∧
    encode (.hostWr 0x12 100) = 0x20001264 := by decide

/-- Address decode (R98, V-E). -/
theorem test_decode_addr :
    decodeAddr Cfg.default 0x04 = .system 4 ∧ decodeAddr Cfg.default 0x13 = .motor .one 3 ∧
    decodeAddr Cfg.default 0x1D = .motor .one 13 ∧ decodeAddr Cfg.default 0x1E = .free ∧
    decodeAddr Cfg.default 0x2C = .motor .two 12 ∧ decodeAddr Cfg.default 0x07 = .free := by decide

/-! ### Host operations (V-H) -/

theorem test_nop : nextIs (step (next (.stim 0x00000000))) (fun t => t == State.reset) = true := by decide
/-- H2. -/
theorem test_hostRd : nextIs (step (next (.stim 0x10001500))) (fun t => t.hpRdata == 100) = true := by decide
/-- H5, and the frame of the other cells. -/
theorem test_hostWr : nextIs (step (next (.stim 0x20001EAB)))
    (fun t => t.cell 0x1E == some 0xAB && t.cell 0x15 == some 100 && t.cell 0x1F == none) = true := by decide
theorem test_tick : nextIs (step (next (.stim 0x30000000))) (fun t => t.seq == some 0x1000 && t.busy) = true := by
  decide
/-- A TICK while busy is held (R130). -/
theorem test_tick_held : nextIs (step { next (.stim 0x30000000) with seq := some 0x5000 })
    (fun t => t.seq == some 0x5000 && t.heldTicks == 1) = true := by decide
/-- V-R1, R241: RESET drops the tick and keeps the overcurrent level and the history. -/
theorem test_reset : nextIs (step { next (.stim 0x40000000) with
      bank := [(3, 9), (30, 7)], seq := some 0x5000, heldTicks := 2, ax1.oc := true, calls := [⟨.one, 3, .reverse⟩] })
    (fun t => t == { State.reset with ax1.oc := true, calls := [⟨.one, 3, .reverse⟩] }) = true := by decide
theorem test_setOc : nextIs (step (next (.stim 0x50010100))) (fun t => t.ax2.oc && !t.ax1.oc) = true := by decide

/-- A port cycle with `oc_in` = 2, `hp_re` and `tick` (R43). -/
theorem test_pins : nextIs (step (next (.pins ⟨false, true, false, true, 0x15, 0, false, true⟩)))
    (fun t => t.hpRdata == 100 && t.busy && t.ax2.oc && !t.ax1.oc) = true := by decide

/-! ### Loads and saves (R131 to R137) -/

/-- R131's example. -/
theorem test_sysLoad : nextIs (step ({ State.reset with bank := Bank.write State.reset.bank 4 0x01 }.withFetchWord 16
    0x1004)) (fun t => t.rr && t.sv.rsterr == 1 && t.seq == some 0x1005) = true := by decide
/-- Only index 4 writes the request. -/
theorem test_sysLoad_last : nextIs (exec (.sysLoad 6) { State.reset with rr := true, bank := [(6, 8)] })
    (fun t => t.rr && t.sv.parity == 8) = true := by decide
/-- R132's example. -/
theorem test_mLoad : nextIs (step (State.reset.withFetchWord 16 0x2005))
    (fun t => t.mv.maxs == 100 && t.seq == some 0x2006) = true := by decide
theorem test_mLoad_two : nextIs (step ({ State.reset with bank := Bank.write State.reset.bank 0x2D 7 }.withFetchWord
    16 0x210D)) (fun t => t.mv.ec == 7 && t.seq == some 0x3100) = true := by decide
/-- R134's example. -/
theorem test_mSave : nextIs (step ({ State.reset with mv.as := 40 }.withFetchWord 16 0x4003))
    (fun t => t.cell 0x13 == some 40 && t.cell 0x23 == some 0) = true := by decide
theorem test_mSave_last : nextIs (step (State.reset.withFetchWord 16 0x410D)) (fun t => t.seq == some 0x5000) = true := by
  decide
/-- R135's example. -/
theorem test_sysStep : nextIs (exec .sysStep { State.reset with
      ax1.s.mst := .faulted, ax1.s.err := 3, ax1.s.sw := 8, sv.baud := 5, sv.parity := 6 })
    (fun t => t.sv == ⟨1, 1, 1, 3, 0, 5, 6⟩) = true := by decide
/-- T4 and T7: the request is consumed with its other bits; axis 2 RUNNING is bit 3. -/
theorem test_sysStep_request : nextIs (exec .sysStep { State.reset with
      rr := true, sv.rsterr := 0xFF, ax2.s.sw := 7, ax2.s.mst := .onOffActive })
    (fun t => t.sv.rsterr == 0 && t.sv.sysst == 8) = true := by decide
/-- R136's example. -/
theorem test_sysSave : nextIs (exec (.sysSave 3) { State.reset with sv.syserr := 3 })
    (fun t => t.cell 0x03 == some 3) = true := by decide
theorem test_tickEnd : nextIs (step (State.reset.withFetchWord 16 0x7000)) (fun t => t.seq == none) = true := by decide

/-! ### M_STEP and its phases (R180 to R193, V-M, V-F) -/

/-- S1. -/
theorem test_mStep_onOff : nextIs (exec (.mStep .one) (ready (img 1 1 40 1)))
    (fun t => t.mv.as == 40 && t.mv.sw == 7 && t.mv.ec == 0 && t.calls == [⟨.one, 40, .forward⟩]) = true := by decide
/-- P2: Vmax 0. -/
theorem test_mStep_config : nextIs (exec (.mStep .one) (ready { img 2 1 0 0 with vmax := 0 }))
    (fun t => t.mv.sw == 8 && t.mv.ec == 4 && t.mv.as == 0 && t.calls == [⟨.one, 0, .idle⟩]) = true := by decide

/-- S8: the byte 5 keeps the last valid direction. -/
theorem test_p1 : nextIs (exec .p1DirSanitize { ready (img 1 1 0 5) with ax1.s.dirEff := .forward })
    (fun t => decide (t.ax1.s.dirEff = .forward)) = true := by decide
theorem test_p1_valid : nextIs (exec .p1DirSanitize { ready (img 1 1 0 2) with ax1.s.dirEff := .forward })
    (fun t => decide (t.ax1.s.dirEff = .reverse)) = true := by decide
/-- R182's examples. -/
theorem test_p2 : nextIs (exec .p2CmdClamp (ready (img 1 1 200 0))) (fun t => t.loc.cmdEff == 100) = true := by decide
theorem test_p2_min : nextIs (exec .p2CmdClamp (ready { img 1 1 5 0 with mins := 60, maxs := 50 }))
    (fun t => t.loc.cmdEff == 50 && t.loc.rangeBad) = true := by decide
/-- R183's example. -/
theorem test_p3 : nextIs (exec .p3ResetError (faulted (img 1 0 0 0) true))
    (fun t => decide (t.ax1.s.mst = .disabled) && t.ax1.s.err == 0) = true := by decide
theorem test_p3_enabled : nextIs (exec .p3ResetError (faulted (img 1 1 0 0) true))
    (fun t => decide (t.ax1.s.mst = .faulted) && t.ax1.s.err == 3) = true := by decide
/-- R184's examples. -/
theorem test_p4 : nextIs (exec .p4ModeSelect (ready (img 2 1 0 0)))
    (fun t => decide (t.ax1.s.mst = .rampActive) && t.loc.entered) = true := by decide
theorem test_p4_none : nextIs (exec .p4ModeSelect { ready (img 7 1 0 0) with ax1.s.mst := .onOffActive })
    (fun t => decide (t.ax1.s.mst = .disabled)) = true := by decide
theorem test_p5_onOff : nextIs (exec .p5HandleOnOff { State.reset with loc.cmdEff := 40, ax1.s.done := true })
    (fun t => t.loc.speed == 40 && !t.ax1.s.done) = true := by decide
/-- V-U4 tick 2, and R187's `done`. -/
theorem test_p5_ramp : nextIs (exec .p5HandleRamp (ramping (profile 0x3951B718 0x3E4CCCCD)
      { Locals.launch with cmdEff := 100, entered := true }))
    (fun t => t.ax1.m.v == .ofBits 0x3A1D4952 && t.ax1.m.a == .ofBits 0x3ECCCCCD && t.loc.speed == 0 &&
      !t.ax1.s.done) = true := by decide
/-- P5: the position restarts when the command changes. -/
theorem test_p5_ramp_retarget : nextIs (exec .p5HandleRamp { ramping { profile 0x422F1937 0x42480000 with
      pos := .ofBits 0x419A8422 } { Locals.launch with cmdEff := 50 } with ax1.s.prevCmd := 100, mv.maxs := 100 })
    (fun t => t.ax1.m.v == .ofBits 0x422F4C36 && t.ax1.m.a == .ofBits 0x42473333 &&
      t.ax1.m.j == .ofBits 0xC3480000 && t.ax1.m.pos == .ofBits 0x3D33813E && t.loc.speed == 44) = true := by decide
theorem test_p5_idle : nextIs (exec .p5HandleIdle { State.reset with loc.speed := 9, ax1.s.done := true })
    (fun t => t.loc.speed == 0 && !t.ax1.s.done) = true := by decide
/-- R189's examples. -/
theorem test_p6_duty : nextIs (exec .p6Duty { ready { img 1 1 0 0 with maxs := 200 } with
      ax1.s.mst := .onOffActive, loc.speed := 33 }) (fun t => t.loc.duty == 16) = true := by decide
theorem test_p6_duty_idle : nextIs (exec .p6Duty { ready (img 1 1 0 0) with loc.speed := 33, loc.duty := 5 })
    (fun t => t.loc.duty == 0) = true := by decide
/-- R190's example. -/
theorem test_p6_actuate : nextIs (exec .p6Actuate { State.reset with loc.duty := 40, ax1.s.dirEff := .forward })
    (fun t => t.calls == [⟨.one, 40, .forward⟩] && t.ax1.out == ⟨40, .forward, true, false⟩) = true := by decide
theorem test_p8 : nextIs (exec .p8Status { State.reset with
      ax1.s.mst := .rampActive, loc.speed := 19, loc.cmdEff := 100 })
    (fun t => t.loc.sw == 3 && t.ax1.s.sw == 3) = true := by decide
theorem test_p9 : nextIs (exec .p9Writeback { ready (img 1 1 150 5) with
      loc.speed := 100, loc.sw := 7, ax1.s.err := 2 })
    (fun t => t.mv == { img 1 1 150 5 with as := 100, sw := 7, ec := 2 }) = true := by decide

/-! ### The profile (V-P, V-U) -/

/-- P1. -/
theorem test_rampInit : nextIs (exec .rampInit (ready (img 2 1 0 0)))
    (fun t => t.loc.ok && t.ax1.m.vm == .ofBits 0x42C80000 && t.ax1.m.am == .ofBits 0x42480000 &&
      t.ax1.m.jm == .ofBits 0x43480000 && t.ax1.m.dt == .ofBits 0x3A83126F) = true := by decide
/-- P4: Jmax 0. -/
theorem test_rampInit_zero : nextIs (exec .rampInit (ready { img 2 1 0 0 with jmax := 0 }))
    (fun t => !t.loc.ok) = true := by decide
theorem test_msReset : nextIs (exec .msReset (ramping (profile 0x42480000 0x42480000) Locals.launch))
    (fun t => t.ax1.m == Motion.atRest (.inf false)) = true := by decide
theorem test_retarget : nextIs (exec .retarget (ramping { profile 0x42700000 0 with pos := .ofBits 0x419A8422 }
      Locals.launch)) (fun t => t.ax1.m == profile 0x42700000 0) = true := by decide
/-- U7: a fall, with mirrored candidates. -/
theorem test_update : nextIs (exec .update (ramping (profile 0x42C80000 0) Locals.launch))
    (fun t => t.ax1.m.v == .ofBits 0x42C7FFE6 && t.ax1.m.a == .ofBits 0xBE4CCCCD &&
      t.ax1.m.j == .ofBits 0xC3480000 && t.ax1.m.pos == .ofBits 0x3DCCCCB3 && !t.loc.updDone) = true := by decide
/-- U3: the velocity snap, with `a` zeroed. -/
theorem test_update_snap : nextIs (exec .update (ramping (profile 0x42C7FFF9 0x3DCCCCCD)
      { Locals.launch with vreq := F32.ofNat 100 }))
    (fun t => t.ax1.m.v == .ofBits 0x42C80000 && t.ax1.m.a == .zero && t.ax1.m.j == .ofBits 0xC2C80000 &&
      t.loc.updDone) = true := by decide
/-- V-U1. -/
theorem test_brakeGain : brakeGain (.ofBits 0x3E4CCCCD) (.ofBits 0x3A83126F) (.ofBits 0x42480000) = .ofBits 0x40C73334 ∧
    brakeGain (.ofBits 0x3E4CCCCD) (.ofBits 0x3A83126F) (.ofBits 0x3ECCCCCD) = .ofBits 0x3951B717 := by decide
/-- V-U3. -/
theorem test_speed : speedOfVelocity Cfg.default 255 (.ofBits 0x3EFFFFFF) = 0 ∧
    speedOfVelocity Cfg.default 255 (.ofBits 0x40200000) = 3 ∧
    speedOfVelocity Cfg.default 50 (.ofBits 0x42484C51) = 50 := by decide
/-- IEEE 754: 0.1 + 0.2, 1 ÷ 3, an overflow, and a result below the least normal number. -/
theorem test_float : F32.add (.ofBits 0x3DCCCCCD) (.ofBits 0x3E4CCCCD) = .ofBits 0x3E99999A ∧
    F32.div (F32.ofNat 1) (F32.ofNat 3) = .ofBits 0x3EAAAAAB ∧
    F32.mul (.ofBits 0x7F7FFFFF) (F32.ofNat 2) = .inf false ∧
    F32.mul (.ofBits 0x00800000) (.ofBits 0x3F000000) = .ofBits 0x00400000 := by decide

/-! ### The fault monitor (V-F) -/

/-- Overcurrent comes before a bad range (R215). -/
theorem test_checkError : nextIs (exec .checkError { State.reset with
      ax1.s.mst := .onOffActive, ax1.oc := true, loc.rangeBad := true })
    (fun t => t.ax1.s.err == 3 && decide (t.ax1.s.mst = .faulted)) = true := by decide
/-- The last tick before the stall, and the stall (V-F4). -/
theorem test_checkError_stall :
    nextIs (exec .checkError { State.reset with ax1.s.stallCnt := 9998, loc.cmdEff := 40 })
      (fun t => t.ax1.s.stallCnt == 9999 && t.ax1.s.err == 0) = true ∧
    nextIs (exec .checkError { State.reset with ax1.s.stallCnt := 9999, loc.cmdEff := 40 })
      (fun t => t.ax1.s.err == 2 && t.ax1.s.stallCnt == 0) = true := by decide
theorem test_faultLatch : nextIs (exec .faultLatch { State.reset with loc.code := .config, loc.axis := .two })
    (fun t => t.ax2.s.err == 4 && decide (t.ax2.s.mst = .faulted) && t.ax1 == State.reset.ax1) = true := by decide
theorem test_clearError : nextIs (exec .clearError (faulted (img 1 0 0 0) true))
    (fun t => t.ax1.s.err == 0 && decide (t.ax1.s.mst = .disabled)) = true := by decide

/-! ### The register-map fields (R98, R103) -/

/-- A read of each MotorView field of axis 1 after RESET (V-R1). -/
theorem test_motor_reads :
    ([.controlMode .one .rd, .enable .one .rd, .commandSpeed .one .rd, .actualSpeed .one .rd, .direction .one .rd,
      .maxSpeed .one .rd, .minSpeed .one .rd, .vmax .one .rd, .amax .one .rd, .jmax .one .rd, .maxAcc .one .rd,
      .maxDec .one .rd, .statusWord .one .rd, .errorCode .one .rd].zip
        [1, 0, 0, 0, 0, 100, 0, 100, 50, 200, 50, 50, 0, 0]).all
      (fun p => nextIs (exec p.1 State.reset) (fun t => t.hpRdata == p.2)) = true := by decide
/-- A write of each MotorView field of axis 2 goes to its own cell. -/
theorem test_motor_writes :
    ([.controlMode .two (.wr 9), .enable .two (.wr 9), .commandSpeed .two (.wr 9), .actualSpeed .two (.wr 9),
      .direction .two (.wr 9), .maxSpeed .two (.wr 9), .minSpeed .two (.wr 9), .vmax .two (.wr 9),
      .amax .two (.wr 9), .jmax .two (.wr 9), .maxAcc .two (.wr 9), .maxDec .two (.wr 9),
      .statusWord .two (.wr 9), .errorCode .two (.wr 9)].zip (List.range 14)).all
      (fun p => nextIs (exec p.1 State.reset)
        (fun t => t.bank == Bank.write State.reset.bank (0x20 + p.2) 9)) = true := by decide
theorem test_system_reads :
    ([.deviceId .rd, .firmwareVersion .rd, .systemStatus .rd, .systemError .rd, .resetErrorCommand .rd,
      .configBaudrate .rd, .configParity .rd].zip [1, 2, 0, 0, 0, 3, 4]).all
      (fun p => nextIs (exec p.1 { State.reset with
        bank := Bank.initial { Cfg.default with fwVersion := 2, defBaud := 3, defParity := 4 } })
        (fun t => t.hpRdata == p.2)) = true := by decide
theorem test_system_writes :
    ([.deviceId (.wr 9), .firmwareVersion (.wr 9), .systemStatus (.wr 9), .systemError (.wr 9),
      .resetErrorCommand (.wr 9), .configBaudrate (.wr 9), .configParity (.wr 9)].zip (List.range 7)).all
      (fun p => nextIs (exec p.1 State.reset)
        (fun t => t.bank == Bank.write State.reset.bank p.2 9)) = true := by decide

/-! ### Witnesses: states and operands that meet the hypotheses of the statements, clause by clause -/

theorem witness_DecodeOfEncode : (Instr.mLoad .two 13).WF = true ∧ (Instr.sysSave 6).WF = true := by decide

theorem witness_DecodedWordIsItsEncoding : decode .stim32 0x20001101 = .ok (.hostWr 0x11 1) ∧
    decode .uop16 0x210D = .ok (.mLoad .two 13) ∧ decode .subop8 0xB3 = .ok .update ∧
    decode .mreg 0xD = .ok (.errorCode .one .rd) ∧ decode .sreg 0x6 = .ok (.configParity .rd) := by decide

/-- One word for each clause of a reserved stimulus: OP 6 and OP 15, RSV, LVL, DATA, ADDR, and ADDR of SET_OC. -/
theorem witness_ReservedStimulusIsRefused :
    (next (.stim 0x60000000)).cfg.WF = true ∧
    (next (.stim 0x60000000)).sched = .stim 0x60000000 :: [] ∧
    6 ≤ field 0x60000000 31 28 ∧ 6 ≤ field 0xF0000000 31 28 ∧ field 0x20021101 27 17 ≠ 0 ∧
    (field 0x10010000 31 28 ≠ 5 ∧ field 0x10010000 16 16 ≠ 0) ∧
    (field 0x10001501 31 28 ≠ 2 ∧ field 0x10001501 7 0 ≠ 0) ∧
    (field 0x30000100 31 28 ∉ [1, 2, 5] ∧ field 0x30000100 15 8 ≠ 0) ∧
    (field 0x50000200 31 28 = 5 ∧ field 0x50000200 15 9 ≠ 0) := by decide

/-- One word for each clause of a reserved micro-op word. -/
theorem witness_ReservedMicroOpIsRefused :
    ({ State.reset with seq := some 0x1007 } : State).cfg.WF = true ∧
    ({ State.reset with seq := some 0x1007 } : State).sched = [] ∧
    ({ State.reset with seq := some 0x1007 } : State).seq = some 0x1007 ∧
    field 0x0000 15 12 = 0 ∧ 8 ≤ field 0x8000 15 12 ∧ field 0x2200 11 9 ≠ 0 ∧ field 0x7010 7 4 ≠ 0 ∧
    (field 0x1007 15 12 ∈ [1, 6] ∧ 7 ≤ field 0x1007 3 0) ∧
    (field 0x200E 15 12 ∈ [2, 4] ∧ 14 ≤ field 0x200E 3 0) ∧
    (field 0x3001 15 12 ∈ [3, 5, 7] ∧ field 0x3001 3 0 ≠ 0) ∧
    (field 0x1100 15 12 ∈ [1, 5, 6, 7] ∧ field 0x1100 8 8 ≠ 0) := by decide

/-- 0x07, 0x1E and 0xFF are in no span of the default configuration. -/
theorem witness_AddressDecodeNamesEachField : Cfg.default.WF = true ∧
    (∀ x ∈ [(0x07 : Byte), 0x0F, 0x1E, 0x2E, 0xFF],
      (∀ i : Fin 14, x ≠ Cfg.default.motorAddr .one i ∧ x ≠ Cfg.default.motorAddr .two i) ∧
      ∀ i : Fin 7, x ≠ Cfg.default.sysAddr i) := by decide

theorem witness_StepRunsScheduledWord :
    ((next (.stim 0x30000000)).cfg.WF = true ∧ (next (.stim 0x30000000)).sched = .stim 0x30000000 :: [] ∧
      decode .stim32 0x30000000 = .ok .tick) ∧
    ((next (.mreg 0x5)).sched = .mreg 0x5 :: [] ∧ decode .mreg 0x5 = .ok (.maxSpeed .one .rd)) ∧
    ((next (.sreg 0x4)).sched = .sreg 0x4 :: [] ∧ decode .sreg 0x4 = .ok (.resetErrorCommand .rd)) ∧
    ((next (.subop 0xC2)).sched = .subop 0xC2 :: [] ∧ decode .subop8 0xC2 = .ok .clearError) := by decide

theorem witness_StepRunsMicroOp :
    (({ State.reset with seq := some 0x3000 } : State).cfg.WF = true ∧
      ({ State.reset with seq := some 0x3000 } : State).seq = some 0x3000 ∧
      decode .uop16 ((0x3000 : Uop16).setWidth 32) = .ok (.mStep .one) ∧
      ({ State.reset with seq := some 0x3000 } : State).sched = []) ∧
    ({ next .core with seq := some 0x7000 } : State).sched = .core :: [] := by decide

/-- A word with a plain successor, and each word that ends a part of SEQ, decodes. -/
theorem witness_StepRunsMicroOp_words :
    [(0x1000 : Word32), 0x1006, 0x200D, 0x3000, 0x400D, 0x210D, 0x3100, 0x410D, 0x5000, 0x6006, 0x7000].map
      (fun w => (decode .uop16 w).toOption) =
    [.sysLoad 0, .sysLoad 6, .mLoad .one 13, .mStep .one, .mSave .one 13, .mLoad .two 13, .mStep .two,
      .mSave .two 13, .sysStep, .sysSave 6, .tickEnd].map some := by decide

theorem witness_TickRunsInSeventyFourSteps :
    ({ State.reset with seq := some 0x1000 } : State).cfg.WF = true ∧
    ({ State.reset with seq := some 0x1000 } : State).sched = [] ∧
    ({ State.reset with seq := some 0x1000 } : State).seq = some 0x1000 := by decide

theorem witness_IdleBlockRetainsItsState : State.reset.cfg.WF = true ∧ State.reset.sched = [] ∧
    State.reset.seq = none ∧ State.reset.heldTicks = 0 := by decide

theorem witness_IllFormedConfigurationIsRefused :
    ({ State.reset with cfg.baseM1 := 0x06 } : State).cfg.WF = false := by decide

/-- `hp_we` with `hp_re`, and `rst` with each other strobe; then the cycles without a conflict: `rst` alone, no
strobe, and each host strobe with and without `tick`. -/
theorem witness_ConflictingStrobesAreRefused :
    (next (.pins ⟨false, false, true, true, 0, 0, false, false⟩)).cfg.WF = true ∧
    (next (.pins ⟨false, false, true, true, 0, 0, false, false⟩)).sched =
      .pins ⟨false, false, true, true, 0, 0, false, false⟩ :: [] ∧
    (∀ p ∈ [(⟨false, false, true, true, 0, 0, false, false⟩ : Pins), ⟨true, true, false, false, 0, 0, false, false⟩,
        ⟨true, false, true, false, 0, 0, false, false⟩, ⟨true, false, false, true, 0, 0, false, false⟩],
      (p.hpWe = true ∧ p.hpRe = true) ∨ (p.rst = true ∧ (p.tick = true ∨ p.hpWe = true ∨ p.hpRe = true))) ∧
    (∀ p ∈ [(⟨true, false, false, false, 0, 0, true, false⟩ : Pins), ⟨false, false, false, false, 0, 0, true, true⟩,
        ⟨false, false, true, false, 0x11, 1, false, false⟩, ⟨false, true, true, false, 0x11, 1, false, false⟩,
        ⟨false, false, false, true, 0x15, 0, false, false⟩, ⟨false, true, false, true, 0x15, 0, false, true⟩],
      ¬ ((p.hpWe = true ∧ p.hpRe = true) ∨
        (p.rst = true ∧ (p.tick = true ∨ p.hpWe = true ∨ p.hpRe = true)))) := by
  decide

theorem witness_StepKeepsTheConfiguration : ∃ t, step State.reset = .next t := ⟨_, rfl⟩

/-- A written cell and a ⊥ cell. -/
theorem witness_HostReadReturnsTheCell : State.reset.cell 0x15 = some 100 ∧ State.reset.cell 0x1E = none := by decide

theorem witness_HostWriteStoresOneCell : (0x14 : Byte) ≠ 0x15 := by decide

theorem witness_TickStartsIsHeldAndEnds : State.reset.seq = none ∧
    ({ State.reset with seq := some 0x5000 } : State).busy = true := by decide

theorem witness_HeldTickStartsWhenIdle : ({ State.reset with heldTicks := 1 } : State).cfg.WF = true ∧
    ({ State.reset with heldTicks := 1 } : State).sched = [] ∧
    ({ State.reset with heldTicks := 1 } : State).seq = none ∧
    ({ State.reset with heldTicks := 1 } : State).heldTicks = 0 + 1 := by decide

theorem witness_ResetEstablishesTheResetState : State.reset.cfg.WF = true ∧
    decodeAddr State.reset.cfg 0x1E = .free := by decide

/-- The request index 4, and the last index 6. -/
theorem witness_SysLoadCopiesOneByte :
    ((4 : BitVec 4).toNat ≤ 6 ∧ State.reset.cell (State.reset.cfg.sysAddr 4) = some 0) ∧
    ((6 : BitVec 4).toNat ≤ 6 ∧ State.reset.cell (State.reset.cfg.sysAddr 6) = some 0) := by decide

theorem witness_MotorLoadCopiesOneByte :
    ((0 : BitVec 4).toNat ≤ 13 ∧ State.reset.cell (State.reset.cfg.motorAddr .one 0) = some 1) ∧
    ((13 : BitVec 4).toNat ≤ 13 ∧ State.reset.cell (State.reset.cfg.motorAddr .two 13) = some 0) := by decide

theorem witness_MotorSaveStoresOneByte : (0 : BitVec 4).toNat ≤ 13 ∧ (13 : BitVec 4).toNat ≤ 13 := by decide

theorem witness_SysSaveStoresOneByte : (0 : BitVec 4).toNat ≤ 6 ∧ (6 : BitVec 4).toNat ≤ 6 := by decide

theorem witness_ReservedIndexIsRefused : 7 ≤ (7 : BitVec 4).toNat ∧ 14 ≤ (14 : BitVec 4).toNat ∧
    7 ≤ (15 : BitVec 4).toNat ∧ 14 ≤ (15 : BitVec 4).toNat := by decide

/-- The spans of the reset state are written. -/
theorem witness_LoadThenSaveKeepsTheBank : State.reset.cfg.WF = true ∧ Bank.wf State.reset.bank = true ∧
    State.reset.SpansWritten := by
  refine ⟨by decide, by decide, by decide, ?_⟩
  intro k
  cases k <;> decide

/-- The last index of a MotorView, and Reset_Error_Command and the last index of the SystemView. -/
theorem witness_HostWriteBeforeSaveIsLost : Bank.wf State.reset.bank = true ∧ (13 : BitVec 4).toNat ≤ 13 ∧
    (4 : BitVec 4).toNat ≤ 6 ∧ (6 : BitVec 4).toNat ≤ 6 := by decide

theorem witness_DirSanitizeKeepsLastValid : (ready (img 1 1 0 0)).mv.dir = 0 ∧ (ready (img 1 1 0 1)).mv.dir = 1 ∧
    (ready (img 1 1 0 2)).mv.dir = 2 ∧ 3 ≤ (ready (img 1 1 0 3)).mv.dir.toNat ∧
    3 ≤ (ready (img 1 1 0 255)).mv.dir.toNat := by decide

theorem witness_ResetErrorClearsOnlyWhenDisabled :
    (((faulted (img 1 0 0 0) true).ax .one).s.mst = .faulted ∧ (faulted (img 1 0 0 0) true).rr = true ∧
      (faulted (img 1 0 0 0) true).mv.en ≠ 1) ∧
    ¬ (((faulted (img 1 1 0 0) true).ax .one).s.mst = .faulted ∧ (faulted (img 1 1 0 0) true).rr = true ∧
      (faulted (img 1 1 0 0) true).mv.en ≠ 1) := by decide

/-- Each case of P4: FAULTED, no change, a plain change, an entry of RAMP_ACTIVE, a zero limit. -/
theorem witness_ModeSelectFollowsEnableAndMode :
    ((faulted (img 1 1 0 0) false).ax .one).s.mst = .faulted ∧
    (requestedMst (img 1 0 0 0) = (State.reset.ax .one).s.mst) ∧
    ((State.reset.ax .one).s.mst ≠ .faulted ∧ requestedMst (img 1 1 0 0) ≠ (State.reset.ax .one).s.mst ∧
      requestedMst (img 1 1 0 0) ≠ .rampActive) ∧
    (requestedMst (img 2 1 0 0) = .rampActive ∧ (img 2 1 0 0).vmax ≠ 0 ∧ (img 2 1 0 0).amax ≠ 0 ∧
      (img 2 1 0 0).jmax ≠ 0) ∧
    ({ img 2 1 0 0 with vmax := 0 } : MotorView).vmax = 0 := by decide

theorem witness_DutyIsThePercentOfMaxSpeed :
    (({ ready (img 1 1 0 0) with ax1.s.mst := .onOffActive } : State).ax .one).s.mst = .onOffActive ∧
    (ready (img 1 1 0 0)).mv.maxs ≠ 0 ∧ ((ready (img 1 1 0 0)).ax .one).s.mst = .disabled ∧
    ((faulted (img 1 1 0 0) true).ax .one).s.mst = .faulted ∧
    (ready { img 1 1 0 0 with maxs := 0 }).mv.maxs = 0 := by decide

theorem witness_UpdateHoldsAVelocityOnTarget :
    (profile 0x42C80000 0x3E19999A).v.isFinite = true ∧ (profile 0x42C80000 0x3E19999A).a.isFinite = true ∧
    (profile 0x42C80000 0x3E19999A).dt.isFinite = true ∧ (profile 0x42C80000 0x3E19999A).jm.isFinite = true ∧
    (F32.le (F32.neg (profile 0x42C80000 0x3E19999A).vm) (profile 0x42C80000 0x3E19999A).v = true ∧
      F32.le (profile 0x42C80000 0x3E19999A).v (profile 0x42C80000 0x3E19999A).vm = true) ∧
    F32.feq (targetVelocity (profile 0x42C80000 0x3E19999A) (F32.ofNat 100))
      (profile 0x42C80000 0x3E19999A).v = true ∧
    F32.le (F32.abs (profile 0x42C80000 0x3E19999A).a)
      (F32.mul (profile 0x42C80000 0x3E19999A).jm (profile 0x42C80000 0x3E19999A).dt) = true := by decide

/-- The cases of U4: U5, U4 and U6 of V-U2 (velocity on target), tick 1 (a rise) and U7 (a fall). -/
theorem witness_UpdateFollowsItsSteps :
    (F32.feq (F32.sub (F32.ofNat 100) (profile 0x42C80000 0x3E19999A).v) .zero = true ∧
      F32.le (F32.abs (.ofBits 0x3E19999A)) (.ofBits 0x3E4CCCCD) = true) ∧
    (F32.le (F32.abs (.ofBits 0x3F000000)) (.ofBits 0x3E4CCCCD) = false ∧
      F32.lt .zero (.ofBits 0x3F000000) = true) ∧
    (F32.le (F32.abs (.ofBits 0xBF000000)) (.ofBits 0x3E4CCCCD) = false ∧
      F32.lt .zero (.ofBits 0xBF000000) = false) ∧
    (F32.feq (F32.sub (F32.ofNat 100) .zero) .zero = false ∧
      F32.lt .zero (F32.sub (F32.ofNat 100) .zero) = true) ∧
    (F32.feq (F32.sub .zero (F32.ofNat 100)) .zero = false ∧
      F32.lt .zero (F32.sub .zero (F32.ofNat 100)) = false) := by decide

/-- A tie, decided for the even number. -/
theorem witness_RoundingIsToNearestEven : 0 < 2 ∧ (1 : Nat) ≠ F32.roundMag 3 2 ∧ F32.roundMag 3 2 = 2 ∧
    F32.roundMag (2 ^ 25 + 2) 1 % 2 = 0 := by decide

/-- No cause below the threshold, a stall at it, a bad range, an overcurrent. -/
theorem witness_CheckErrorLatchesTheFirstCause :
    (State.reset.ax .one).oc = false ∧ State.reset.loc.rangeBad = false ∧ 9999 < State.reset.cfg.stallTicks ∧
    State.reset.cfg.stallTicks ≤ 10000 ∧ ({ State.reset with loc.rangeBad := true } : State).loc.rangeBad = true ∧
    (({ State.reset with ax1.oc := true } : State).ax .one).oc = true := by decide

/-- One state for each row of the table of R194. -/
theorem witness_MStepFollowsTheTransitionTable : State.reset.cfg.WF = true ∧
    (((faulted (img 1 0 0 0) true).ax .one).s.mst = .faulted ∧ (faulted (img 1 0 0 0) true).rr = true ∧
      (faulted (img 1 0 0 0) true).mv.en ≠ 1) ∧
    ¬ ((faulted (img 1 0 0 0) false).rr = true ∧ (faulted (img 1 0 0 0) false).mv.en ≠ 1) ∧
    ((State.reset.ax .one).s.mst ≠ .faulted ∧ (ready (img 3 1 0 0)).mv.cm ≠ 1 ∧ (ready (img 3 1 0 0)).mv.cm ≠ 2) ∧
    ((ready (img 1 1 0 0)).mv.en = 1 ∧ (ready (img 1 1 0 0)).mv.cm = 1) ∧
    ((State.reset.ax .one).s.mst ≠ .rampActive ∧ (ready { img 2 1 0 0 with amax := 0 }).mv.en = 1 ∧
      (ready { img 2 1 0 0 with amax := 0 }).mv.cm = 2 ∧ (ready { img 2 1 0 0 with amax := 0 }).mv.amax = 0) ∧
    ((ready (img 2 1 0 0)).mv.vmax ≠ 0 ∧ (ready (img 2 1 0 0)).mv.amax ≠ 0 ∧ (ready (img 2 1 0 0)).mv.jmax ≠ 0) ∧
    ((ramping (profile 0 0) Locals.launch).ax .one).s.mst = .rampActive ∧
    -- a RAMP_ACTIVE tick that goes on, and one that latches OVERCURRENT
    nextIs (exec (.mStep .one) (ready (img 2 1 100 0))) (fun t => decide ((t.ax .one).s.mst = .rampActive)) = true ∧
    nextIs (exec (.mStep .one) { ready (img 2 1 100 0) with ax1.oc := true })
      (fun t => decide ((t.ax .one).s.mst = .faulted)) = true := by decide

/-- Two states that agree on what M_STEP(1) reads and differ elsewhere. -/
theorem witness_MStepDependsOnItsAxisOnly :
    let s := ready (img 1 1 40 1)
    let t := { s with bank := [], hpRdata := 7, ax2.s.err := 3, calls := [⟨.two, 5, .forward⟩], heldTicks := 2 }
    s.cfg = t.cfg ∧ s.mv = t.mv ∧ s.rr = t.rr ∧ (s.ax .one).s = (t.ax .one).s ∧ (s.ax .one).m = (t.ax .one).m ∧
      (s.ax .one).oc = (t.ax .one).oc ∧ s ≠ t := by decide

/-- A valid Direction of each value, and the least and the greatest invalid one. -/
theorem witness_MStepFrame : (ready (img 2 1 40 0)).mv.dir = 0 ∧ (ready (img 2 1 40 1)).mv.dir = 1 ∧
    (ready (img 2 1 40 2)).mv.dir = 2 ∧ 3 ≤ (ready (img 2 1 40 3)).mv.dir.toNat ∧
    3 ≤ (ready (img 2 1 40 255)).mv.dir.toNat := by decide

/-- No fault at Min_Speed = Max_Speed, an overcurrent, and Min_Speed one above Max_Speed. -/
theorem witness_MStepOnOffTracksTheCommand : (ready (img 1 1 40 1)).cfg.WF = true ∧
    ((ready (img 1 1 40 1)).ax .one).s.mst ≠ .faulted ∧ (ready (img 1 1 40 1)).mv.en = 1 ∧
    (ready (img 1 1 40 1)).mv.cm = 1 ∧ ((ready (img 1 1 40 1)).ax .one).oc = false ∧
    (ready { img 1 1 40 1 with mins := 100 }).mv.mins.toNat ≤
      (ready { img 1 1 40 1 with mins := 100 }).mv.maxs.toNat ∧
    (({ ready (img 1 1 40 1) with ax1.oc := true } : State).ax .one).oc = true ∧
    (ready { img 1 1 40 1 with mins := 101 }).mv.maxs.toNat <
      (ready { img 1 1 40 1 with mins := 101 }).mv.mins.toNat := by decide

theorem witness_MStepFaultedStaysSafe : ((faulted (img 1 1 0 0) true).ax .one).s.mst = .faulted ∧
    ¬ ((faulted (img 1 1 0 0) true).rr = true ∧ (faulted (img 1 1 0 0) true).mv.en ≠ 1) := by decide

theorem witness_MStepDisableStopsAtOnce :
    ((ramping (profile 0x42480000 0) Locals.launch).ax .one).s.mst ≠ .faulted ∧
    ((ramping (profile 0x42480000 0) Locals.launch).ax .one).s.mst ≠ .disabled ∧
    ({ ramping (profile 0x42480000 0) Locals.launch with mv := img 2 0 0 0 } : State).mv.en ≠ 1 := by decide

theorem witness_MotorFieldAccessIsAHostAccess :
    State.reset.cell (State.reset.cfg.motorAddr .two (13 : Fin 14)) = some 0 ∧
    ({ State.reset with bank := [] } : State).cell (State.reset.cfg.motorAddr .one (0 : Fin 14)) = none := by decide

theorem witness_SystemFieldAccessIsAHostAccess :
    State.reset.cell (State.reset.cfg.sysAddr (6 : Fin 7)) = some 0 ∧
    ({ State.reset with bank := [] } : State).cell (State.reset.cfg.sysAddr (0 : Fin 7)) = none := by decide

/-- A state with a scheduled TICK and a tick in progress meets `State.Coherent`, and its step answers. -/
theorem witness_StepKeepsCoherence :
    ({ next (.stim 0x30000000) with seq := some 0x3000 } : State).Coherent ∧
    ∃ t, step { next (.stim 0x30000000) with seq := some 0x3000 } = .next t := by
  refine ⟨⟨by decide, by decide, witness_LoadThenSaveKeepsTheBank.2.2, ?_, ?_, ?_, ?_, ?_⟩, ?_⟩
  · constructor <;> decide
  · constructor <;> decide
  · intro c hc; cases hc
  · intro w hw; cases hw; exact ⟨.mStep .one, by decide⟩
  · intro ev hev
    rw [List.mem_singleton.1 hev]
    rfl
  · have h : nextIs (step { next (.stim 0x30000000) with seq := some 0x3000 }) (fun _ => true) = true := by decide
    revert h
    cases step { next (.stim 0x30000000) with seq := some 0x3000 } with
    | next t => intro _; exact ⟨t, rfl⟩
    | fault r => intro h; cases h
    | refused r => intro h; cases h

/-- An axis in RAMP_ACTIVE at half speed meets R167's bounds, and the core's next micro-op is its M_STEP. -/
theorem witness_StepKeepsTheMotionBounds :
    ({ ramping (profile 0x42480000 0x42480000) Locals.launch with seq := some 0x3000, mv := img 2 1 100 0 } :
      State).MotionBounded ∧
    nextIs (step { ramping (profile 0x42480000 0x42480000) Locals.launch with
      seq := some 0x3000, mv := img 2 1 100 0 }) (fun t => t.ax1.m.v == .ofBits 0x42483333) = true := by
  refine ⟨⟨by decide, ?_, fun _ => ?_, ?_⟩, by decide⟩
  · intro ev hev; cases hev
  · exact ⟨by decide, by decide, by decide, by decide, ⟨by decide, by decide⟩, ⟨by decide, by decide⟩,
      ⟨by decide, by decide⟩⟩
  · intro h; exact absurd h (by decide)

end Sys2Proof.Tests
end

/-! # Proofs of the family 00_scope: what every step keeps, which operation it runs, the address
decode, rounding -/

namespace Sys2Proof

/-! ### The encoding space of a decoded operation (R90) -/

/-- A guarded decoding that succeeds is the guarded operation. -/
theorem eq_of_ite_ok {c : Prop} [Decidable c] {i j : Instr} {e : DecodeError}
    (h : (if c then Except.ok i else .error e) = Except.ok j) : j = i := by
  split at h <;> cases h
  rfl

/-- A stimulus word spells only STIM32 operations (R92). -/
theorem decodeStim_format {w : Word32} {i : Instr} (h : decodeStim w = .ok i) : i.format = .stim32 := by
  unfold decodeStim at h
  dsimp only at h
  split at h
  case h_7 => cases h
  all_goals rw [eq_of_ite_ok h]; rfl

/-- An indexed micro-op that decodes is that of its index (R96). -/
theorem decodeIndexed_eq {last idx : Nat} {mk : BitVec 4 → Instr} {i : Instr}
    (h : decodeIndexed last idx mk = .ok i) : i = mk (BitVec.ofNat 4 idx) := eq_of_ite_ok h

/-- A micro-op word spells only UOP16 operations (R96). -/
theorem decodeUop_format {w : Word32} {i : Instr} (h : decodeUop w = .ok i) : i.format = .uop16 := by
  unfold decodeUop at h
  dsimp only at h
  split at h
  · split at h
    · split at h
      · rw [decodeIndexed_eq h]; rfl
      · cases h
    · rw [decodeIndexed_eq h]; rfl
    · rw [eq_of_ite_ok h]; rfl
    · rw [decodeIndexed_eq h]; rfl
    · rw [eq_of_ite_ok h]; rfl
    · split at h
      · rw [decodeIndexed_eq h]; rfl
      · cases h
    · rw [eq_of_ite_ok h]; rfl
    · cases h
  · cases h

/-- A sub-operation code spells only SUBOP8 operations (R97). -/
theorem decodeSubop_format {w : Word32} {i : Instr} (h : decodeSubop w = .ok i) : i.format = .subop8 := by
  unfold decodeSubop at h
  split at h <;> cases h <;> rfl

/-- The fields of a MotorView are MREG operations (R98). -/
theorem motorFieldAt_format {off : Nat} {k : Axis} {acc : Access} {i : Instr}
    (h : motorFieldAt off k acc = .ok i) : i.format = .mreg := by
  unfold motorFieldAt at h
  split at h <;> cases h <;> rfl

/-- The fields of the SystemView are SREG operations (R98). -/
theorem systemFieldAt_format {off : Nat} {acc : Access} {i : Instr}
    (h : systemFieldAt off acc = .ok i) : i.format = .sreg := by
  unfold systemFieldAt at h
  split at h <;> cases h <;> rfl

/-- A MotorView field word spells only MREG operations (R98). -/
theorem decodeMreg_format {w : Word32} {i : Instr} (h : decodeMreg w = .ok i) : i.format = .mreg := by
  unfold decodeMreg at h
  dsimp only at h
  split at h
  · split at h
    · exact motorFieldAt_format h
    · cases h
  · cases h

/-- A SystemView field word spells only SREG operations (R98). -/
theorem decodeSreg_format {w : Word32} {i : Instr} (h : decodeSreg w = .ok i) : i.format = .sreg := by
  unfold decodeSreg at h
  dsimp only at h
  split at h
  · split at h
    · exact systemFieldAt_format h
    · cases h
  · cases h

/-- R90: a word spells only operations of the encoding space it is read in. -/
theorem format_of_decode {f : Format} {w : Word32} {i : Instr} (h : decode f w = .ok i) : i.format = f := by
  cases f with
  | stim32 => exact decodeStim_format h
  | uop16 => exact decodeUop_format h
  | subop8 => exact decodeSubop_format h
  | mreg => exact decodeMreg_format h
  | sreg => exact decodeSreg_format h

end Sys2Proof

namespace Sys2Proof.Machine

/-! ### What an operation can do to the state -/

/-- Two states with the same configuration, bank, axes, output history, `seq` and schedule: they differ at most
in the images, `rr`, `hp_rdata`, the held TICKs, the locals and the count of drawn bytes. -/
structure State.SameBlock (s t : State) : Prop where
  cfg : t.cfg = s.cfg
  bank : t.bank = s.bank
  ax1 : t.ax1 = s.ax1
  ax2 : t.ax2 = s.ax2
  calls : t.calls = s.calls
  seq : t.seq = s.seq
  sched : t.sched = s.sched

/-- The next states that an operation other than a sub-operation can answer; the reads, the loads, SYS_STEP and
NOP are the case `views`. -/
inductive State.Effect (s : State) : State → Prop where
  | views {t : State} (h : s.SameBlock t) : s.Effect t
  | store (a v : Byte) : s.Effect (s.store a v)
  | setOc (k : Axis) (level : Bool) : s.Effect (s.setOvercurrent k level)
  | tick : s.Effect s.tick
  | reset : s.Effect s.doReset
  | mStep (k : Axis) : s.Effect (s.mStep k)
  | tickEnd : s.Effect { s with seq := none }

/-- NOP changes nothing (R120). -/
theorem State.SameBlock.refl (s : State) : s.SameBlock s := ⟨rfl, rfl, rfl, rfl, rfl, rfl, rfl⟩

/-- HOST_RD writes `hp_rdata` and the count of drawn bytes (R121). -/
theorem State.hostRead_sameBlock (s : State) (a : Byte) : s.SameBlock (s.hostRead a) :=
  ⟨rfl, rfl, rfl, rfl, rfl, rfl, rfl⟩

/-- SYS_LOAD writes `SV`, `rr` and the count of drawn bytes (R131). -/
theorem State.sysLoad_sameBlock (s : State) (i : Nat) : s.SameBlock (s.sysLoad i) :=
  ⟨rfl, rfl, rfl, rfl, rfl, rfl, rfl⟩

/-- M_LOAD writes `MV` and the count of drawn bytes (R132). -/
theorem State.mLoad_sameBlock (s : State) (k : Axis) (i : Nat) : s.SameBlock (s.mLoad k i) :=
  ⟨rfl, rfl, rfl, rfl, rfl, rfl, rfl⟩

/-- SYS_STEP writes `SV` (R135). -/
theorem State.sysStep_sameBlock (s : State) : s.SameBlock s.sysStep :=
  ⟨rfl, rfl, rfl, rfl, rfl, rfl, rfl⟩

/-- A host access reads or stores one cell. -/
theorem State.access_effect (s : State) (a : Byte) (acc : Access) : s.Effect (s.access a acc) := by
  cases acc with
  | rd => exact .views (s.hostRead_sameBlock a)
  | wr d => exact .store a d

/-- An operation on a MotorView field is the host access to its cell (R98, R103). -/
theorem exec_mreg {i : Instr} (hf : i.format = .mreg) :
    ∃ k off acc, ∀ s, exec i s = .next (s.motorField k off acc) := by
  cases i <;> cases hf <;> exact ⟨_, _, _, fun _ => rfl⟩

/-- An operation on a SystemView field is the host access to its cell (R98, R103). -/
theorem exec_sreg {i : Instr} (hf : i.format = .sreg) :
    ∃ off acc, ∀ s, exec i s = .next (s.systemField off acc) := by
  cases i <;> cases hf <;> exact ⟨_, _, fun _ => rfl⟩

/-- A sub-operation works on the axis that the locals name (log entry 2). -/
theorem exec_subop {i : Instr} (hf : i.format = .subop8) :
    ∃ f, ∀ s, exec i s = .next (s.onLocals f) := by
  cases i <;> cases hf <;> exact ⟨_, fun _ => rfl⟩

/-- A guarded operation that answers a next state answers the guarded one. -/
theorem eq_of_ite_next {c : Prop} [Decidable c] {u t : State} {r : Refusal}
    (h : (if c then .next u else .refused r : Host.Outcome State Fault Refusal) = .next t) : t = u := by
  split at h <;> cases h
  rfl

/-- What a host operation or TICK can do (R120 to R124, R130, R240). -/
theorem exec_stim_effect {i : Instr} {s t : State} (hf : i.format = .stim32) (h : exec i s = .next t) :
    s.Effect t := by
  cases i <;> cases hf <;> cases h
  case nop => exact .views (.refl s)
  case hostRd a => exact .views (s.hostRead_sameBlock a)
  case hostWr a d => exact .store a d
  case tick => exact .tick
  case reset => exact .reset
  case setOc k l => exact .setOc k l

/-- What a micro-op can do (R131 to R137). -/
theorem exec_uop_effect {i : Instr} {s t : State} (hf : i.format = .uop16) (h : exec i s = .next t) :
    s.Effect t := by
  cases i <;> cases hf
  case sysLoad i => rw [eq_of_ite_next h]; exact .views (s.sysLoad_sameBlock _)
  case mLoad k i => rw [eq_of_ite_next h]; exact .views (s.mLoad_sameBlock k _)
  case mStep k => cases h; exact .mStep k
  case mSave k i => rw [eq_of_ite_next h]; exact .store _ _
  case sysStep => cases h; exact .views s.sysStep_sameBlock
  case sysSave i => rw [eq_of_ite_next h]; exact .store _ _
  case tickEnd => cases h; exact .tickEnd

/-- Everything an operation other than a sub-operation can do. -/
theorem exec_effect {i : Instr} {s t : State} (hf : i.format ≠ .subop8) (h : exec i s = .next t) :
    s.Effect t := by
  cases hi : i.format with
  | stim32 => exact exec_stim_effect hi h
  | uop16 => exact exec_uop_effect hi h
  | subop8 => exact absurd hi hf
  | mreg =>
    obtain ⟨k, off, acc, hx⟩ := exec_mreg hi
    rw [hx] at h
    cases h
    exact s.access_effect _ acc
  | sreg =>
    obtain ⟨off, acc, hx⟩ := exec_sreg hi
    rw [hx] at h
    cases h
    exact s.access_effect _ acc

/-! ### The configuration (R7) -/

/-- No effect touches the configuration. -/
theorem State.Effect.cfg_eq {s t : State} (h : s.Effect t) : t.cfg = s.cfg := by
  cases h with
  | views h => exact h.cfg
  | store a v => exact s.store_cfg a v
  | setOc k l => exact s.setOvercurrent_cfg k l
  | tick => exact s.tick_cfg
  | reset => exact s.doReset_cfg
  | mStep k => exact s.mStep_cfg k
  | tickEnd => rfl

/-- No operation changes the configuration. -/
theorem exec_keeps_cfg {i : Instr} {s t : State} (h : exec i s = .next t) : t.cfg = s.cfg := by
  by_cases hf : i.format = .subop8
  · obtain ⟨f, hx⟩ := exec_subop hf
    rw [hx] at h
    cases h
    exact s.putEnv_cfg _ _
  · exact (exec_effect hf h).cfg_eq

/-- Settles O13: each piece of a step keeps the configuration. -/
theorem stepKeepsTheConfiguration : Obligations.StepKeepsTheConfiguration := fun s _ h =>
  step_keeps (P := fun u => u.cfg = s.cfg)
    (hquiet := fun u hu => u.quiet_cfg.trans hu)
    (hrest := fun _ _ _ _ hu => hu)
    (hoc := fun u k l hu => (u.setOvercurrent_cfg k l).trans hu)
    (hexec := fun _ _ _ _ hu hx => (exec_keeps_cfg hx).trans hu)
    (hsubop := fun _ _ _ _ _ _ _ _ hu hx => (exec_keeps_cfg hx).trans hu)
    (huop := fun _ _ _ _ hu hx => (exec_keeps_cfg hx).trans hu)
    (hformat := fun _ _ _ => format_of_decode)
    (hheld := fun u hu => u.startHeld_cfg.trans hu) rfl h

/-! ### Which operation a step runs -/

/-- Settles O11: `step` asks for a well-formed configuration first. -/
theorem illFormedConfigurationIsRefused : Obligations.IllFormedConfigurationIsRefused := by
  intro s h
  simp only [step, stepBlock, h, Bool.false_eq_true, if_false]

/-- A word that decodes runs its operation. -/
theorem runWord_of_decode {f : Format} {w : Word32} {i : Instr} (h : decode f w = .ok i) (r : Refusal)
    (s : State) : runWord f w r s = exec i s := by
  simp only [runWord, h]

/-- Settles O7: the step of each agent that performs a word is `exec` of its decoding. -/
theorem stepRunsScheduledWord : Obligations.StepRunsScheduledWord := by
  rintro s w rest i hwf (⟨hs, hd⟩ | ⟨hs, hd⟩ | ⟨hs, hd⟩ | ⟨hs, hd⟩) <;> rw [step_of_sched_cons hwf hs]
  · exact runWord_of_decode hd .invalidStimulus _
  · exact runWord_of_decode hd .notAField _
  · exact runWord_of_decode hd .notAField _
  · exact runWord_of_decode hd .unknownSubop _

/-! ### Coherence of an axis through the phases of an M_STEP -/

/-- The clauses of `AxisState.Coherent` on the part of an axis that the phases of an M_STEP decide. -/
structure ModeCoherent (dist : F32) (mst : Mst) (err : Byte) (cnt : BitVec 32) (done : Bool) (m : Motion) :
    Prop where
  err_code : err.toNat ≤ 4
  err_iff : mst = .faulted ↔ err ≠ 0
  stall_idle : mst.active = false → cnt = 0
  done_ramp : mst ≠ .rampActive → done = false
  rest_unless_ramp : mst ≠ .rampActive → m = Motion.atRest dist

/-- `ModeCoherent` of an axis. -/
def AxisState.ModeCoherent (dist : F32) (a : AxisState) : Prop :=
  Machine.ModeCoherent dist a.s.mst a.s.err a.s.stallCnt a.s.done a.m

/-- What an axis needs besides `ModeCoherent` (R36, R43, R44). -/
theorem AxisState.ModeCoherent.coherent {dist : F32} {a : AxisState} (h : a.ModeCoherent dist)
    (hdone : a.out.done = a.s.done) (hduty : a.out.duty.toNat ≤ 100) (hsw : a.s.sw.toNat < 16) :
    a.Coherent dist :=
  ⟨h.err_code, h.err_iff, h.stall_idle, h.done_ramp, h.rest_unless_ramp, hdone, hduty, hsw⟩

/-- A coherent axis has a coherent mode part. -/
theorem AxisState.Coherent.mode {dist : F32} {a : AxisState} (h : a.Coherent dist) : a.ModeCoherent dist :=
  ⟨h.err_code, h.err_iff, h.stall_idle, h.done_ramp, h.rest_unless_ramp⟩

/-- A latched fault (R211, R214). -/
theorem ModeCoherent.latched (dist : F32) (c : FaultCode) :
    ModeCoherent dist .faulted c.byte 0 false (Motion.atRest dist) where
  err_code := by cases c <;> decide
  err_iff := by cases c <;> decide
  stall_idle _ := rfl
  done_ramp _ := rfl
  rest_unless_ramp _ := rfl

/-- A state without a fault, the counter at 0 and the profile at rest (R153, R218). -/
theorem ModeCoherent.atRest (dist : F32) {mst : Mst} (h : mst ≠ .faulted) :
    ModeCoherent dist mst 0 0 false (Motion.atRest dist) where
  err_code := by decide
  err_iff := iff_of_false h fun h => h rfl
  stall_idle _ := rfl
  done_ramp _ := rfl
  rest_unless_ramp _ := rfl

/-- RAMP_ACTIVE constrains the code alone. -/
theorem ModeCoherent.ramp (dist : F32) (cnt : BitVec 32) (done : Bool) (m : Motion) :
    ModeCoherent dist .rampActive 0 cnt done m where
  err_code := by decide
  err_iff := by decide
  stall_idle h := absurd h (by decide)
  done_ramp h := absurd rfl h
  rest_unless_ramp h := absurd rfl h

section
variable {dist : F32} {mst : Mst} {err : Byte} {cnt : BitVec 32} {done : Bool} {m : Motion}

/-- The code is 0 outside FAULTED. -/
theorem ModeCoherent.err_zero (h : ModeCoherent dist mst err cnt done m) (hm : mst ≠ .faulted) : err = 0 :=
  not_not.1 fun he => hm (h.err_iff.2 he)

/-- The stall counter is free in an active state. -/
theorem ModeCoherent.count (h : ModeCoherent dist mst err cnt done m) (ha : mst.active = true)
    (cnt' : BitVec 32) : ModeCoherent dist mst err cnt' done m :=
  { h with stall_idle := fun hi => absurd (ha.symm.trans hi) (by decide) }

/-- The mode part of an axis whose parts are given. -/
theorem AxisState.Decides.modeCoherent {a : AxisState} (ha : a.Decides mst err cnt done m)
    (h : Machine.ModeCoherent dist mst err cnt done m) : a.ModeCoherent dist := by
  obtain ⟨rfl, rfl, rfl, rfl, rfl⟩ := ha
  exact h

end

/-- P1 to P4 keep the mode part of an axis coherent (R183, R184, R185). -/
theorem Env.front_coherent {e : Env} (h : e.ax.ModeCoherent (e.cfg.distance e.loc.axis)) :
    e.front.ax.ModeCoherent (e.cfg.distance e.loc.axis) := by
  rcases e.front_cases with ⟨hm, -, -, hd⟩ | ⟨-, -, -, hd⟩ | ⟨hm, -, -, hd⟩ | ⟨hm, -, -, -, -, hd⟩ |
    ⟨-, -, -, -, hd⟩
  · have hr : e.ax.s.mst ≠ .rampActive := by rw [hm]; decide
    refine hd.modeCoherent ?_
    rw [h.done_ramp hr, h.rest_unless_ramp hr]
    exact .atRest _ nofun
  · exact hd.modeCoherent h
  · exact hd.modeCoherent (h.err_zero hm ▸ .atRest _ (requestedMst_ne_faulted e.mv))
  · exact hd.modeCoherent (h.err_zero hm ▸ .ramp _ _ _ _)
  · exact hd.modeCoherent (.latched _ .config)

/-- Outside RAMP_ACTIVE a handler clears `done` and leaves the profile alone (R186, R188). -/
theorem Env.handle_of_ne_ramp {e : Env} (h : e.ax.s.mst ≠ .rampActive) :
    e.handle.ax.s.done = false ∧ e.handle.ax.m = e.ax.m := by
  cases ha : e.ax.s.mst.active with
  | false => rw [Env.handle_inactive ha]; exact ⟨rfl, rfl⟩
  | true => rw [Env.handle_onOff (((Mst.active_iff _).1 ha).resolve_right h)]; exact ⟨rfl, rfl⟩

/-- The handlers keep the mode part of an axis coherent (R186, R187, R188). -/
theorem Env.handle_coherent {dist : F32} {e : Env} (h : e.ax.ModeCoherent dist) :
    e.handle.ax.ModeCoherent dist := by
  have hk := e.handle_mode
  unfold AxisState.ModeCoherent
  rw [hk.mst, hk.err, hk.cnt]
  by_cases hr : e.ax.s.mst = .rampActive
  · rw [h.err_zero (by rw [hr]; decide), hr]
    exact .ramp _ _ _ _
  · obtain ⟨hd, hm⟩ := Env.handle_of_ne_ramp hr
    rw [hd, hm]
    exact { h with done_ramp := fun _ => rfl }

/-- The end of an M_STEP is coherent if what the fault monitor left is, and the duty is a percentage. -/
theorem Env.finish_coherent {dist : F32} (e : Env) {duty : BitVec 7} (code : FaultCode) {mst : Mst} {err : Byte}
    {cnt : BitVec 32} {done : Bool} {m : Motion} (hd : duty.toNat ≤ 100)
    (h : ModeCoherent dist mst err cnt done m) : (e.finish duty code mst err cnt done m).ax.Coherent dist := by
  obtain ⟨-, -, -, -, hsw⟩ := statusWordOf_bits mst e.loc.speed e.loc.cmdEff
  exact AxisState.ModeCoherent.coherent h rfl hd hsw

/-- The phases after the handler make the axis coherent (R189 to R193). -/
theorem Env.tail_coherent {e : Env} (h : e.ax.ModeCoherent (e.cfg.distance e.loc.axis)) :
    e.tail.ax.Coherent (e.cfg.distance e.loc.axis) := by
  have hd := dutyOf_le e.ax.s.mst e.loc.speed e.mv.maxs
  cases ha : e.ax.s.mst.active with
  | false => rw [Env.tail_inactive ha]; exact e.finish_coherent _ (by decide) h
  | true =>
    cases hf : detectedFault e.ax.oc e.loc.rangeBad
      (countStall e.ax.s.stallCnt e.loc.speed e.loc.cmdEff) e.cfg.stallTicks with
    | none => rw [Env.tail_active ha hf]; exact e.finish_coherent _ hd (h.count ha _)
    | some c => rw [Env.tail_fault ha hf]; exact e.finish_coherent _ hd (.latched _ c)

/-- An M_STEP keeps its axis coherent. -/
theorem Env.mStep_coherent {e : Env} (h : e.ax.Coherent (e.cfg.distance e.loc.axis)) :
    e.mStep.ax.Coherent (e.cfg.distance e.loc.axis) := by
  have hf := e.front_frame.trans e.front.handle_frame
  rw [Env.mStep_eq, ← hf.cfg, ← hf.axis]
  refine Env.tail_coherent ?_
  rw [hf.cfg, hf.axis]
  exact Env.handle_coherent (Env.front_coherent h.mode)

/-- The end of an M_STEP makes one OutputPWM call (R190). -/
theorem Env.finish_calls (e : Env) (duty : BitVec 7) (code : FaultCode) (mst : Mst) (err : Byte)
    (cnt : BitVec 32) (done : Bool) (m : Motion) :
    (e.finish duty code mst err cnt done m).calls = e.calls ++ [⟨e.loc.axis, duty, e.ax.s.dirEff⟩] := rfl

/-- An M_STEP makes one OutputPWM call, of a duty of at most 100 (R44, R190). -/
theorem Env.mStep_calls (e : Env) :
    ∃ c : PwmCall, c.duty.toNat ≤ 100 ∧ e.mStep.calls = e.calls ++ [c] := by
  have hf := e.front_frame.trans e.front.handle_frame
  obtain ⟨code, mst, err, cnt, done, m, ht⟩ := e.front.handle.tail_eq_finish
  rw [Env.mStep_eq, ht, Env.finish_calls, hf.calls]
  exact ⟨_, dutyOf_le _ _ _, rfl⟩

/-! ### Coherence of the block -/

/-- An axis after RESET (R244). -/
theorem AxisState.initial_coherent (c : Cfg) (k : Axis) (oc : Bool) :
    (AxisState.initial c k oc).Coherent (c.distance k) :=
  have hmode : (AxisState.initial c k oc).ModeCoherent (c.distance k) := ModeCoherent.atRest _ nofun
  hmode.coherent rfl (Nat.zero_le 100) (Nat.zero_lt_succ 15)

/-- The overcurrent level and the strobe are no part of the coherence of an axis. -/
theorem AxisState.Coherent.withInputs {dist : F32} {a : AxisState} (h : a.Coherent dist) (oc stb : Bool) :
    ({ a with oc := oc, out.stb := stb } : AxisState).Coherent dist :=
  ⟨h.err_code, h.err_iff, h.stall_idle, h.done_ramp, h.rest_unless_ramp, h.done_out, h.duty_le, h.sw_high⟩

/-- Both axes of a coherent block are coherent. -/
theorem State.Coherent.ax_coherent {s : State} (h : s.Coherent) (k : Axis) :
    (s.ax k).Coherent (s.cfg.distance k) := by
  cases k
  · exact h.ax_one
  · exact h.ax_two

/-- The coherence of a state with the same configuration, bank and schedule as a coherent one. -/
theorem State.Coherent.of_axes {s t : State} (h : s.Coherent) (hcfg : t.cfg = s.cfg)
    (hbank : t.bank = s.bank) (hsched : t.sched = s.sched) (hax : ∀ k, (t.ax k).Coherent (s.cfg.distance k))
    (hcalls : ∀ c ∈ t.calls, c.duty.toNat ≤ 100) (hseq : ∀ w, t.seq = some w → ∃ i, fetchUop w = .ok i) :
    t.Coherent where
  cfg_wf := hcfg ▸ h.cfg_wf
  bank_wf := hbank ▸ h.bank_wf
  spans := by simpa only [State.SpansWritten, State.cell, hcfg, hbank] using h.spans
  ax_one := hcfg ▸ hax .one
  ax_two := hcfg ▸ hax .two
  calls_le := hcalls
  seq_uop := hseq
  no_probe := hsched ▸ h.no_probe

/-- Coherence does not speak of the images, the read port and the locals. -/
theorem State.Coherent.sameBlock {s t : State} (h : s.Coherent) (e : s.SameBlock t) : t.Coherent := by
  refine h.of_axes e.cfg e.bank e.sched (fun k => ?_) (e.calls ▸ h.calls_le) (e.seq ▸ h.seq_uop)
  cases k
  · rw [State.ax_one, e.ax1]; exact h.ax_one
  · rw [State.ax_two, e.ax2]; exact h.ax_two

/-- The strobes going low keep the block coherent. -/
theorem State.Coherent.quiet {s : State} (h : s.Coherent) : s.quiet.Coherent := by
  refine h.of_axes rfl rfl rfl (fun k => ?_) h.calls_le h.seq_uop
  cases k
  · exact h.ax_one.withInputs _ false
  · exact h.ax_two.withInputs _ false

/-- SET_OC keeps the block coherent (R123). -/
theorem State.Coherent.setOvercurrent {s : State} (h : s.Coherent) (k : Axis) (l : Bool) :
    (s.setOvercurrent k l).Coherent := by
  refine h.of_axes (s.setOvercurrent_cfg k l) (s.setOvercurrent_bank k l) (s.setOvercurrent_sched k l)
    (fun j => ?_) (s.setOvercurrent_calls k l ▸ h.calls_le) (s.setOvercurrent_seq k l ▸ h.seq_uop)
  by_cases hj : j = k
  · subst hj
    rw [State.setOvercurrent, State.ax_setAx]
    exact (h.ax_coherent j).withInputs l _
  · rw [State.setOvercurrent, State.ax_setAx_of_ne _ _ hj]
    exact h.ax_coherent j

/-- A micro-op of SEQ is read back from its word (R95, R96). -/
theorem fetchUop_uopOf {i : Instr} (hf : i.format = .uop16) (hw : i.WF = true) :
    fetchUop (uopOf i) = .ok i := by
  cases i <;> cases hf
  case sysLoad i => exact fetchUop_sysLoad i (of_decide_eq_true hw)
  case mLoad k i => exact fetchUop_mLoad k i (of_decide_eq_true hw)
  case mStep k => cases k <;> decide
  case mSave k i => exact fetchUop_mSave k i (of_decide_eq_true hw)
  case sysStep => decide
  case sysSave i => exact fetchUop_sysSave i (of_decide_eq_true hw)
  case tickEnd => decide

/-- What follows a micro-op in SEQ is a micro-op or IDLE (R130). -/
theorem fetchUop_nextUop {i : Instr} {w : Uop16} (h : nextUop i = some w) : ∃ j, fetchUop w = .ok j := by
  obtain ⟨j, hj, rfl⟩ := Option.map_eq_some_iff.1 h
  obtain ⟨hf, hw⟩ := nextInstr_wf hj
  exact ⟨j, fetchUop_uopOf hf hw⟩

/-- The first word of SEQ (R130). -/
theorem fetchUop_firstUop : fetchUop firstUop = .ok (.sysLoad 0) := fetchUop_uopOf rfl rfl

/-- `seq` may move to any micro-op, or to IDLE. -/
theorem State.Coherent.withSeq {s : State} (h : s.Coherent) {q : Option Uop16}
    (hq : ∀ w, q = some w → ∃ i, fetchUop w = .ok i) : ({ s with seq := q } : State).Coherent :=
  h.of_axes rfl rfl rfl h.ax_coherent h.calls_le hq

/-- A tick may start (R130). -/
theorem State.Coherent.withFirstUop {s : State} (h : s.Coherent) :
    ({ s with seq := some firstUop } : State).Coherent :=
  h.withSeq fun _ hw => by cases hw; exact ⟨_, fetchUop_firstUop⟩

/-- TICK keeps the block coherent (R130). -/
theorem State.Coherent.tick {s : State} (h : s.Coherent) : s.tick.Coherent := by
  unfold State.tick
  split
  · exact h.sameBlock ⟨rfl, rfl, rfl, rfl, rfl, rfl, rfl⟩
  · exact h.withFirstUop

/-- The start of a held TICK keeps the block coherent (R130). -/
theorem State.Coherent.startHeld {s : State} (h : s.Coherent) : s.startHeld.Coherent := by
  unfold State.startHeld
  split
  · exact h
  · exact h.withFirstUop.sameBlock ⟨rfl, rfl, rfl, rfl, rfl, rfl, rfl⟩

/-- A written cell stays written after a store. -/
theorem State.cell_isSome_store {s : State} {x : Byte} (h : (s.cell x).isSome = true) (a v : Byte) :
    ((s.store a v).cell x).isSome = true := by
  rw [State.cell_store]
  split
  · rfl
  · exact h

/-- A store keeps the block coherent (R122). -/
theorem State.Coherent.store {s : State} (h : s.Coherent) (a v : Byte) : (s.store a v).Coherent :=
  { h with
    bank_wf := State.store_bank_wf h.bank_wf a v
    spans := ⟨fun i hi => State.cell_isSome_store (h.spans.1 i hi) a v,
      fun k i hi => State.cell_isSome_store (h.spans.2 k i hi) a v⟩ }

/-- RESET writes the three spans (R240). -/
theorem State.spansWritten_doReset {s : State} (h : s.cfg.WF = true) : s.doReset.SpansWritten := by
  constructor
  · intro i hi
    rw [State.cell, State.doReset_bank, State.doReset_cfg, Bank.read_initial_sys h hi,
      getElem?_pos (SysView.initial s.cfg).image i hi, Option.isSome_some]
  · intro k i hi
    rw [State.cell, State.doReset_bank, State.doReset_cfg, Bank.read_initial_motor h k hi,
      getElem?_pos (MotorView.initial s.cfg).image i hi, Option.isSome_some]

/-- RESET keeps the block coherent (R240). -/
theorem State.Coherent.doReset {s : State} (h : s.Coherent) : s.doReset.Coherent where
  cfg_wf := by rw [State.doReset_cfg]; exact h.cfg_wf
  bank_wf := by rw [State.doReset_bank]; exact Bank.wf_initial h.cfg_wf
  spans := State.spansWritten_doReset h.cfg_wf
  ax_one := by rw [State.doReset_cfg, State.doReset_ax1]; exact AxisState.initial_coherent s.cfg .one _
  ax_two := by rw [State.doReset_cfg, State.doReset_ax2]; exact AxisState.initial_coherent s.cfg .two _
  calls_le := by rw [State.doReset_calls]; exact h.calls_le
  seq_uop w hw := by rw [State.doReset_seq] at hw; cases hw
  no_probe := by rw [State.doReset_sched]; exact h.no_probe

/-- M_STEP keeps the block coherent: its axis by `Env.mStep_coherent`, the other by the frame. -/
theorem State.Coherent.mStep {s : State} (h : s.Coherent) (k : Axis) : (s.mStep k).Coherent := by
  refine h.of_axes (s.mStep_cfg k) (s.mStep_bank k) (s.mStep_sched k) (fun j => ?_) (fun c hc => ?_)
    (s.mStep_seq k ▸ h.seq_uop)
  · by_cases hj : j = k
    · subst hj
      rw [State.mStep_ax]
      exact Env.mStep_coherent (e := { s.env j with loc.axis := j }) (h.ax_coherent j)
    · rw [State.mStep_ax_of_ne s hj]
      exact h.ax_coherent j
  · obtain ⟨d, hd, he⟩ := Env.mStep_calls { s.env k with loc.axis := k }
    rw [State.mStep_calls, he, List.mem_append, List.mem_singleton] at hc
    rcases hc with hc | rfl
    · exact h.calls_le c hc
    · exact hd

/-- Every operation other than a sub-operation keeps the block coherent. -/
theorem State.Coherent.effect {s t : State} (h : s.Coherent) (e : s.Effect t) : t.Coherent := by
  cases e with
  | views e => exact h.sameBlock e
  | store a v => exact h.store a v
  | setOc k l => exact h.setOvercurrent k l
  | tick => exact h.tick
  | reset => exact h.doReset
  | mStep k => exact h.mStep k
  | tickEnd => exact h.withSeq nofun

/-- A coherent state schedules no sub-operation alone. -/
theorem State.Coherent.not_subop {s : State} (h : s.Coherent) {w : Word32} {rest : List Event} :
    s.sched ≠ .subop w :: rest := fun hs => by
  have := h.no_probe (.subop w) (by rw [hs]; exact List.mem_cons_self)
  cases this

/-- The schedule of a coherent state may advance. -/
theorem State.Coherent.advance {s : State} (h : s.Coherent) {ev : Event} {rest : List Event}
    (hs : s.sched = ev :: rest) : ({ s with sched := rest } : State).Coherent :=
  { h with no_probe := fun e he => h.no_probe e (by rw [hs]; exact List.mem_cons_of_mem ev he) }

/-- Settles O58: each piece of a step keeps the block coherent. -/
theorem stepKeepsCoherence : Obligations.StepKeepsCoherence := fun _ _ hs h =>
  step_keeps (P := State.Coherent)
    (hquiet := fun _ hu => hu.quiet)
    (hrest := fun _ _ _ he hu => hu.advance he)
    (hoc := fun _ k l hu => hu.setOvercurrent k l)
    (hexec := fun _ _ _ hf hu hx => hu.effect (exec_effect hf hx))
    (hsubop := fun _ _ _ _ _ _ he hu _ _ => absurd he hu.not_subop)
    (huop := fun _ _ _ hf hu hx => (hu.effect (exec_uop_effect hf hx)).withSeq fun _ => fetchUop_nextUop)
    (hformat := fun _ _ _ => format_of_decode)
    (hheld := fun _ hu => hu.startHeld) hs h

end Sys2Proof.Machine

namespace Sys2Proof

/-! ### The address decode (R98) -/

/-- An address at or above a base is that base plus an offset. -/
theorem eq_base_add {a x : Byte} (h : a.toNat ≤ x.toNat) : x = a + BitVec.ofNat 8 (x.toNat - a.toNat) := by
  bv_omega

end Sys2Proof

namespace Sys2Proof.Machine

/-- The offsets of a MotorView are the names of their addresses. -/
theorem decodeAddr_motorAddr {c : Cfg} (h : c.WF = true) (k : Axis) {i : Nat} (hi : i < 14) :
    decodeAddr c (c.motorAddr k i) = .motor k i := by
  obtain ⟨-, -, -, -, -, hd⟩ := Cfg.spans_of_wf h
  have ha := Cfg.motorAddr_toNat h k hi
  unfold decodeAddr
  cases k <;> simp only [Cfg.motorBase] at ha <;> rw [ha]
  · rw [if_pos (by omega), Nat.add_sub_cancel_left]
  · rw [if_neg (by omega), if_pos (by omega), Nat.add_sub_cancel_left]

/-- The offsets of the SystemView are the names of their addresses. -/
theorem decodeAddr_sysAddr {c : Cfg} (h : c.WF = true) {i : Nat} (hi : i < 7) :
    decodeAddr c (c.sysAddr i) = .system i := by
  obtain ⟨-, -, -, hd1, hd2, -⟩ := Cfg.spans_of_wf h
  unfold decodeAddr
  rw [Cfg.sysAddr_toNat h hi, if_neg (by omega), if_neg (by omega), if_pos (by omega), Nat.add_sub_cancel_left]

/-- An address that is no view offset's is free. -/
theorem decodeAddr_free {c : Cfg} {x : Byte} (hm : ∀ k i, i < 14 → x ≠ c.motorAddr k i)
    (hs : ∀ i, i < 7 → x ≠ c.sysAddr i) : decodeAddr c x = .free := by
  have motor : ∀ k, ¬ ((c.motorBase k).toNat ≤ x.toNat ∧ x.toNat ≤ (c.motorBase k).toNat + 13) :=
    fun k ⟨hlo, hhi⟩ => hm k (x.toNat - (c.motorBase k).toNat) (by omega) (eq_base_add hlo)
  have system : ¬ (c.baseSys.toNat ≤ x.toNat ∧ x.toNat ≤ c.baseSys.toNat + 6) :=
    fun ⟨hlo, hhi⟩ => hs (x.toNat - c.baseSys.toNat) (by omega) (eq_base_add hlo)
  exact (if_neg (motor .one)).trans ((if_neg (motor .two)).trans (if_neg system))

/-- Settles O6, span by span. -/
theorem addressDecodeNamesEachField : Obligations.AddressDecodeNamesEachField := fun _ h =>
  ⟨fun k _ => decodeAddr_motorAddr h k, fun _ => decodeAddr_sysAddr h, fun _ => decodeAddr_free⟩

end Sys2Proof.Machine

namespace Sys2Proof.F32

/-! ### Rounding to nearest even (R13) -/

/-- A magnitude with exponent field `k + 1`, or the denormal one `k = 0`, and significand `m`: a significand of
2^24 is the least of the next exponent. -/
theorem units_scaled {k m : Nat} (hlo : k = 0 ∨ 2 ^ 23 ≤ m) (hhi : m ≤ 2 ^ 24) :
    units (k * 2 ^ 23 + m) = m * 2 ^ k := by
  unfold units
  dsimp only
  rcases Nat.lt_or_ge m (2 ^ 23) with hm | hm
  · have hk : k = 0 := by omega
    subst hk
    rw [if_pos (by omega)]
    omega
  · rcases Nat.lt_or_ge m (2 ^ 24) with hm' | hm'
    · have he : (k * 2 ^ 23 + m) / 2 ^ 23 = k + 1 := by omega
      have hf : 2 ^ 23 + (k * 2 ^ 23 + m) % 2 ^ 23 = m := by omega
      rw [he, hf, if_neg (by omega), Nat.add_sub_cancel]
    · have he : (k * 2 ^ 23 + m) / 2 ^ 23 = k + 2 := by omega
      have hf : (k * 2 ^ 23 + m) % 2 ^ 23 = 0 := by omega
      have htop : m = 2 ^ 23 * 2 := by omega
      rw [he, hf, if_neg (by omega), htop, Nat.add_zero, Nat.mul_assoc, ← Nat.pow_succ']
      rfl

/-- Every magnitude is one with a significand below 2^24, at its exponent. -/
theorem exists_significand (b : Nat) :
    ∃ k m, b = k * 2 ^ 23 + m ∧ (k = 0 ∨ 2 ^ 23 ≤ m) ∧ m < 2 ^ 24 := by
  rcases Nat.lt_or_ge b (2 ^ 24) with hb | hb
  · exact ⟨0, b, by omega, .inl rfl, hb⟩
  · exact ⟨b / 2 ^ 23 - 1, 2 ^ 23 + b % 2 ^ 23, by omega, .inr (by omega), by omega⟩

/-- The values of the magnitudes rise with their bits. -/
theorem units_strictMono : StrictMono units := by
  refine strictMono_nat_of_lt_succ fun b => ?_
  obtain ⟨k, m, rfl, hlo, hhi⟩ := exists_significand b
  rw [Nat.add_assoc, units_scaled hlo (by omega), units_scaled (by omega) hhi]
  exact Nat.mul_lt_mul_of_pos_right (Nat.lt_succ_self m) (Nat.two_pow_pos k)

/-- The exponent of the unit in the last place of a result whose integer part is `q`. -/
def ulpExp (q : Nat) : Nat := if q < 2 ^ 24 then 0 else Nat.log2 q - 23

/-- The unit in the last place of the result for `num / den`, as a multiple of `1 / den`. -/
def ulp (num den : Nat) : Nat := den * 2 ^ ulpExp (num / den)

/-- The magnitude at or just below the exact value `num / den`. -/
def truncMag (num den : Nat) : Nat := ulpExp (num / den) * 2 ^ 23 + num / ulp num den

/-- `roundMag` by the unit and the remainder. -/
theorem roundMag_eq_add (num den : Nat) :
    roundMag num den = ulpExp (num / den) * 2 ^ 23 +
      if ulp num den < 2 * (num % ulp num den) ∨
          ulp num den = 2 * (num % ulp num den) ∧ num / ulp num den % 2 = 1 then
        num / ulp num den + 1
      else num / ulp num den := rfl

/-- `roundMag` goes up from `truncMag` past the middle of the unit, and at the middle from an odd magnitude. -/
theorem roundMag_eq (num den : Nat) :
    roundMag num den =
      if ulp num den < 2 * (num % ulp num den) ∨
          ulp num den = 2 * (num % ulp num den) ∧ truncMag num den % 2 = 1 then
        truncMag num den + 1
      else truncMag num den := by
  have hpar : truncMag num den % 2 = num / ulp num den % 2 := by
    unfold truncMag
    omega
  rw [hpar, roundMag_eq_add]
  split
  · exact (Nat.add_assoc _ _ _).symm
  · rfl

/-- The significand below a value whose integer part is `q` fills its 24 bits, unless the exponent is the
least. -/
theorem significand_bounds (q : Nat) :
    (ulpExp q = 0 ∨ 2 ^ 23 ≤ q / 2 ^ ulpExp q) ∧ q / 2 ^ ulpExp q < 2 ^ 24 := by
  unfold ulpExp
  split
  · exact ⟨.inl rfl, by omega⟩
  · rename_i hq
    have hq0 : q ≠ 0 := by omega
    have hlog : 24 ≤ q.log2 := (Nat.le_log2 hq0).2 (by omega)
    have hsplit : ∀ n, 2 ^ n * 2 ^ (q.log2 - 23) = 2 ^ (n + (q.log2 - 23)) :=
      fun n => (Nat.pow_add 2 _ _).symm
    refine ⟨.inr ?_, ?_⟩
    · rw [Nat.le_div_iff_mul_le (Nat.two_pow_pos _), hsplit, Nat.add_sub_cancel' (by omega)]
      exact Nat.log2_self_le hq0
    · rw [Nat.div_lt_iff_lt_mul (Nat.two_pow_pos _), hsplit, show 24 + (q.log2 - 23) = q.log2 + 1 by omega]
      exact Nat.lt_log2_self

/-- The values of `truncMag` and of the next magnitude: the exact value is the first of them and a remainder, the
second of them is one unit above the first. -/
theorem units_truncMag (num den : Nat) :
    units (truncMag num den) * den + num % ulp num den = num ∧
      units (truncMag num den + 1) * den = units (truncMag num den) * den + ulp num den := by
  obtain ⟨hlo, hhi⟩ := significand_bounds (num / den)
  have hm : num / den / 2 ^ ulpExp (num / den) = num / ulp num den := Nat.div_div_eq_div_mul _ _ _
  have hscale : ∀ m, m * 2 ^ ulpExp (num / den) * den = m * ulp num den := fun m => by
    rw [ulp, Nat.mul_assoc, Nat.mul_comm den]
  rw [hm] at hlo hhi
  unfold truncMag
  rw [Nat.add_assoc, units_scaled hlo hhi.le, units_scaled (by omega) hhi, hscale, hscale, Nat.succ_mul]
  exact ⟨Nat.div_add_mod' num _, rfl⟩

/-- Of the values `u i * den` of a rising scale the nearest to `num` is one of the two around it:
with `d` the distance of those two and `r` that of `num` above the lower, the choice `c` is nearest, and even at a
tie. -/
theorem nearest_of_bracket {u : Nat → Nat} (hu : StrictMono u) {num den n d r c b : Nat} (hden : 0 < den)
    (hval : u n * den + r = num) (hnext : u (n + 1) * den = u n * den + d) (hr : r < d)
    (hc : c = if d < 2 * r ∨ d = 2 * r ∧ n % 2 = 1 then n + 1 else n) (hb : b ≠ c) :
    |(u c * den : Int) - num| < |(u b * den : Int) - num| ∨
      (|(u c * den : Int) - num| = |(u b * den : Int) - num| ∧ c % 2 = 0) := by
  have hmono : ∀ {i j}, i < j → u i * den < u j * den := fun h => Nat.mul_lt_mul_of_pos_right (hu h) hden
  have hb' : u b * den < u n * den ∨ u (n + 1) * den < u b * den ∨ b = n ∨ b = n + 1 := by
    rcases Nat.lt_or_ge b n with h | h
    · exact .inl (hmono h)
    · rcases Nat.lt_or_ge (n + 1) b with h' | h'
      · exact .inr (.inl (hmono h'))
      · omega
  simp only [Int.abs_eq_natAbs, ← Nat.cast_mul]
  split at hc <;> subst hc
  -- upwards: `d - r` is the distance of the choice
  · rcases hb' with h | h | rfl | rfl <;> omega
  -- downwards: `r` is the distance of the choice
  · rcases hb' with h | h | rfl | rfl <;> omega

/-- Settles O45: the magnitudes around the exact value are `truncMag` and the next one. -/
theorem roundingIsToNearestEven : Obligations.RoundingIsToNearestEven := by
  intro num den hden b hb
  obtain ⟨hval, hnext⟩ := units_truncMag num den
  have hulp : 0 < ulp num den := Nat.mul_pos hden (Nat.two_pow_pos _)
  exact nearest_of_bracket units_strictMono hden hval hnext (Nat.mod_lt num hulp) (roundMag_eq num den) hb

end Sys2Proof.F32

/-! # Proofs of the family 10_state: the caps of an M_STEP, the register-map fields, the port cycle, the state
after reset -/

namespace Sys2Proof.Machine

/-! ### The caps of an M_STEP (R44, R166, R189) -/

/-- Actual_Speed from a velocity never passes Max_Speed (R166). -/
theorem speedOfVelocity_le (c : Cfg) (maxs : Byte) (v : F32) : (speedOfVelocity c maxs v).toNat ≤ maxs.toNat :=
  (speedOfVelocity_toNat c maxs v).trans_le (Nat.min_le_right _ _)

/-- The speed that HANDLE_RAMP hands on. -/
@[simp] theorem Env.rampResult_speed (e : Env) (vreq : F32) (m : Motion) (done : Bool) (speed : Byte) :
    (e.rampResult vreq m done speed).loc.speed = speed := rfl

/-- No handler lets Actual_Speed pass Max_Speed, given an effective command that does not (R186, R187, R188). -/
theorem Env.handle_speed_le {e : Env} (h : e.loc.cmdEff.toNat ≤ e.mv.maxs.toNat) :
    e.handle.loc.speed.toNat ≤ e.mv.maxs.toNat := by
  cases ha : e.ax.s.mst.active with
  | false => rw [Env.handle_inactive ha]; exact Nat.zero_le _
  | true =>
    rcases (Mst.active_iff _).1 ha with hm | hm
    · rw [Env.handle_onOff hm]; exact h
    · rw [Env.handle_ramp hm, Env.handleRamp_eq, Env.rampResult_speed]
      exact speedOfVelocity_le _ _ _

/-- The end of an M_STEP writes the speed that the handler left back as Actual_Speed (R193). -/
@[simp] theorem Env.finish_as (e : Env) (duty : BitVec 7) (code : FaultCode) (mst : Mst) (err : Byte)
    (cnt : BitVec 32) (done : Bool) (m : Motion) :
    (e.finish duty code mst err cnt done m).mv.as = e.loc.speed := rfl

/-- The end of an M_STEP puts its duty on the output (R190). -/
@[simp] theorem Env.finish_duty (e : Env) (duty : BitVec 7) (code : FaultCode) (mst : Mst) (err : Byte)
    (cnt : BitVec 32) (done : Bool) (m : Motion) :
    (e.finish duty code mst err cnt done m).ax.out.duty = duty := rfl

/-- An M_STEP caps Actual_Speed at Max_Speed and the duty at 100 (R44, R166, R189). -/
theorem Env.mStep_caps (e : Env) :
    e.mStep.mv.as.toNat ≤ e.mv.maxs.toNat ∧ e.mStep.ax.out.duty.toNat ≤ 100 := by
  have hmv : e.front.mv = e.mv := e.front_frame.mv
  have hcmd : e.front.loc.cmdEff.toNat ≤ e.front.mv.maxs.toNat := by
    rw [Env.front_cmdEff, hmv]; exact effectiveCommand_le e.mv
  obtain ⟨code, mst, err, cnt, done, m, ht⟩ := e.front.handle.tail_eq_finish
  rw [Env.mStep_eq, ht, Env.finish_as, Env.finish_duty, ← hmv]
  exact ⟨Env.handle_speed_le hcmd, dutyOf_le _ _ _⟩

/-- Settles O55: the caps of `Env.mStep_caps`, read off the state. -/
theorem mStepCapsSpeedAndDuty : Obligations.MStepCapsSpeedAndDuty := by
  intro s k
  have hcaps := Env.mStep_caps { s.env k with loc.axis := k }
  rw [← State.mStep_mv, ← State.mStep_ax] at hcaps
  exact .of_eq rfl hcaps

/-! ### The register-map fields (R98, R103) -/

/-- A host read of a written cell (R121). -/
theorem State.hostRead_of_cell {s : State} {a b : Byte} (h : s.cell a = some b) :
    s.hostRead a = { s with hpRdata := b } := by
  rw [State.hostRead, State.byteAt_of_cell h, State.drawsAfter_of_cell h]

/-- A host read of a cell holding ⊥ (R121). -/
theorem State.hostRead_of_none {s : State} {a : Byte} (h : s.cell a = none) :
    s.hostRead a = { s with hpRdata := Config.freeByte s.draws, draws := s.draws + 1 } := by
  rw [State.hostRead, State.byteAt_of_none h, State.drawsAfter_of_none h]

/-- What an operation does whose meaning is the host access to one cell: its read puts the byte of the cell, or
the next free byte, on `hp_rdata`, and its write stores its byte there and nowhere else (R121, R122). -/
theorem hostAccess_effect {op : Access → Instr} {s : State} {a : Byte}
    (h : ∀ acc, exec (op acc) s = .next (s.access a acc)) :
    (∀ b, s.cell a = some b → exec (op .rd) s = .next { s with hpRdata := b }) ∧
    (s.cell a = none →
      exec (op .rd) s = .next { s with hpRdata := Config.freeByte s.draws, draws := s.draws + 1 }) ∧
    ∀ d, NextWith (exec (op (.wr d)) s) fun t =>
      (∀ x, t.cell x = if x = a then some d else s.cell x) ∧ t = { s with bank := t.bank } := by
  refine ⟨fun b hb => ?_, fun hn => ?_, fun d => ?_⟩
  · rw [h, State.access, State.hostRead_of_cell hb]
  · rw [h, State.access, State.hostRead_of_none hn]
  · exact .of_eq (h (.wr d)) ⟨s.cell_store a d, rfl⟩

/-- Settles O56: each of the fourteen rows is the host access to the cell of its offset. -/
theorem motorFieldAccessIsAHostAccess : Obligations.MotorFieldAccessIsAHostAccess := by
  intro s k i ctor
  have hrow : ∀ acc, exec (ctor acc) s = .next (s.motorField k i acc) := by
    fin_cases i <;> exact fun _ => rfl
  exact hostAccess_effect hrow

/-- Settles O57: each of the seven rows is the host access to the cell of its offset. -/
theorem systemFieldAccessIsAHostAccess : Obligations.SystemFieldAccessIsAHostAccess := by
  intro s i ctor
  have hrow : ∀ acc, exec (ctor acc) s = .next (s.systemField i acc) := by
    fin_cases i <;> exact fun _ => rfl
  exact hostAccess_effect hrow

/-! ### The port cycle (R43, R94) -/

/-- The strobes that R94 does not allow together. -/
theorem Pins.conflict_iff (p : Pins) :
    p.conflict = true ↔ (p.hpWe = true ∧ p.hpRe = true) ∨
      (p.rst = true ∧ (p.tick = true ∨ p.hpWe = true ∨ p.hpRe = true)) := by
  simp only [Pins.conflict, Bool.or_eq_true, Bool.and_eq_true, or_assoc]

/-- The levels of `oc_in` taken by both axes (R123). -/
def Pins.takeLevels (p : Pins) (s : State) : State :=
  (s.setOvercurrent .one p.oc1).setOvercurrent .two p.oc2

/-- The host access of the asserted host strobe, if one is asserted (R121, R122). -/
def Pins.hostAccess (p : Pins) (s : State) : State :=
  if p.hpWe then s.store p.hpAddr p.hpWdata else if p.hpRe then s.hostRead p.hpAddr else s

/-- A port cycle with conflicting strobes is refused (R94). -/
theorem portCycle_of_conflict {p : Pins} (hc : p.conflict = true) (s : State) :
    portCycle p s = .refused .strobeConflict := if_pos hc

/-- A port cycle with `rst` is RESET: without a conflict it asserts no other strobe (R94, R240). -/
theorem portCycle_of_rst {p : Pins} (hc : ¬ p.conflict = true) (hr : p.rst = true) (s : State) :
    portCycle p s = exec .reset (p.takeLevels s) := by
  have hoff : ¬ (p.tick = true ∨ p.hpWe = true ∨ p.hpRe = true) := fun h => hc (p.conflict_iff.2 (.inr ⟨hr, h⟩))
  simp only [not_or, Bool.not_eq_true] at hoff
  obtain ⟨ht, hw, hre⟩ := hoff
  simp only [portCycle, if_neg hc, hr, ht, hw, hre, if_true, Bool.false_eq_true, if_false, Pins.takeLevels]

/-- A port cycle without `rst` is the host access, then TICK if `tick` is asserted (R43, R130). -/
theorem portCycle_of_not_rst {p : Pins} (hc : ¬ p.conflict = true) (hr : p.rst = false) (s : State) :
    portCycle p s = if p.tick then exec .tick (p.hostAccess (p.takeLevels s))
      else .next (p.hostAccess (p.takeLevels s)) := by
  have hhost : ¬ (p.hpWe = true ∧ p.hpRe = true) := fun h => hc (p.conflict_iff.2 (.inl h))
  unfold portCycle
  rw [if_neg hc]
  cases hw : p.hpWe <;> cases hre : p.hpRe
  case true.true => exact absurd ⟨hw, hre⟩ hhost
  all_goals
    simp only [hr, hw, hre, Bool.false_eq_true, if_false, if_true, Pins.hostAccess, Pins.takeLevels]
    rfl

/-- Settles O12: the step is the port cycle, which is refused, RESET, or the host access and TICK. -/
theorem conflictingStrobesAreRefused : Obligations.ConflictingStrobesAreRefused := by
  intro s p rest hwf hs s₀ conflict
  have hstep : step s = portCycle p { s.quiet with sched := rest } := step_of_sched_cons hwf hs
  have hlevels : p.takeLevels { s.quiet with sched := rest } = s₀ := rfl
  have hconf : p.conflict = true ↔ conflict := p.conflict_iff
  rw [← hconf, hstep]
  refine ⟨fun hc => portCycle_of_conflict hc _, fun hc hr => ?_, fun hc hr => ?_⟩
  · rw [portCycle_of_rst hc hr, hlevels]
  · have hwe : p.hpRe = true → p.hpWe = false := fun hre =>
      Bool.eq_false_iff.2 fun hw => hc (hconf.2 (.inl ⟨hw, hre⟩))
    rw [portCycle_of_not_rst hc hr, hlevels]
    refine ⟨p.hostAccess s₀, fun hw => ?_, fun hre => ?_, fun hw hre => ?_, fun ht => ?_, fun ht => ?_⟩
    · rw [Pins.hostAccess, if_pos hw]; rfl
    · rw [Pins.hostAccess, hwe hre, if_pos hre]; rfl
    · rw [Pins.hostAccess, hw, hre]; rfl
    · rw [if_pos ht]
    · rw [ht]; rfl

/-! ### The state after reset (R47, R240, R247) -/

/-- The default configuration is well formed (R7, R8). -/
theorem Cfg.default_wf : Cfg.default.WF = true := by decide

/-- At model launch the bank is the one that RESET leaves (R240). -/
theorem State.launch_bank (c : Cfg) : (State.launch c).bank = Bank.initial c := by rw [State.launch]

/-- At model launch the cells of a MotorView hold its reset image (R243). -/
theorem State.launch_motorCells {c : Cfg} (h : c.WF = true) (k : Axis) :
    (List.range 14).map (fun i => (State.launch c).cell (c.motorAddr k i)) =
      (MotorView.initial c).image.map some := by
  have hcell : ∀ i ∈ List.range 14,
      (State.launch c).cell (c.motorAddr k i) = (MotorView.initial c).image[i]? :=
    fun i hi => by rw [State.cell, State.launch_bank, Bank.read_initial_motor h k (List.mem_range.1 hi)]
  rw [List.map_congr_left hcell]
  rfl

/-- At model launch the cells of the SystemView hold its reset image (R242). -/
theorem State.launch_sysCells {c : Cfg} (h : c.WF = true) :
    (List.range 7).map (fun i => (State.launch c).cell (c.sysAddr i)) =
      (SysView.initial c).image.map some := by
  have hcell : ∀ i ∈ List.range 7, (State.launch c).cell (c.sysAddr i) = (SysView.initial c).image[i]? :=
    fun i hi => by rw [State.cell, State.launch_bank, Bank.read_initial_sys h (List.mem_range.1 hi)]
  rw [List.map_congr_left hcell]
  rfl

/-- At model launch both axes have their reset values (R244). -/
theorem State.launch_ax (c : Cfg) (k : Axis) : (State.launch c).ax k = AxisState.initial c k false := by
  cases k <;> rfl

/-- RESET changes nothing at model launch (R240). -/
theorem State.launch_doReset (c : Cfg) : (State.launch c).doReset = State.launch c := rfl

/-- Settles O20: the images of V-R1 are those of the default configuration. -/
theorem resetStateHasTheDefaultViews : Obligations.ResetStateHasTheDefaultViews := by
  refine ⟨fun k => State.launch_motorCells Cfg.default_wf k, State.launch_sysCells Cfg.default_wf,
    by decide, rfl, rfl, fun k => ?_⟩
  rw [State.reset, State.launch_ax]
  cases k <;> exact ⟨rfl, rfl, rfl⟩

/-- Model launch with a well-formed configuration gives a coherent state. -/
theorem State.launch_coherent {c : Cfg} (h : c.WF = true) : (State.launch c).Coherent where
  cfg_wf := h
  bank_wf := by rw [State.launch_bank]; exact Bank.wf_initial h
  spans := State.launch_doReset c ▸ State.spansWritten_doReset (s := State.launch c) h
  ax_one := AxisState.initial_coherent c .one false
  ax_two := AxisState.initial_coherent c .two false
  calls_le := nofun
  seq_uop := nofun
  no_probe := nofun

/-- Model launch leaves no axis in RAMP_ACTIVE, so the bounds of R167 speak of none. -/
theorem State.launch_motionBounded {c : Cfg} (h : c.WF = true) : (State.launch c).MotionBounded where
  cfg_wf := h
  no_probe := nofun
  one_ok := nofun
  two_ok := nofun

/-- Settles O60, from the two invariants at model launch. -/
theorem resetMeetsTheInvariants : Obligations.ResetMeetsTheInvariants :=
  ⟨State.launch_coherent Cfg.default_wf, State.launch_motionBounded Cfg.default_wf⟩

end Sys2Proof.Machine

/-! # Proofs of the family 20_memory: a load and a save of a whole MotorView, a host write before a save -/

namespace Sys2Proof.Machine

/-! ### Lists of operations -/

/-- The operations of an appended list run on from the state that the first list answers. -/
theorem execAll_append_of_next {is : List Instr} (js : List Instr) {s t : State} (h : execAll is s = .next t) :
    execAll (is ++ js) s = execAll js t := by
  induction is generalizing s with
  | nil => cases h; rfl
  | cons i is ih =>
    simp only [List.cons_append, execAll] at h ⊢
    cases hi : exec i s with
    | next u => rw [hi] at h; exact ih h
    | fault r => cases r
    | refused r => rw [hi] at h; cases h

/-- A list of one operation is the operation. -/
theorem execAll_singleton (i : Instr) (s : State) : execAll [i] s = exec i s := by
  rw [execAll]
  cases exec i s <;> rfl

/-- The induction over the bytes of a view: a property indexed by the count of bytes handled, kept by each
operation, holds after all of them. -/
theorem nextWith_execAll_range {mk : BitVec 4 → Instr} {P : Nat → State → Prop} {s : State} (h0 : P 0 s)
    (n : Nat) (hstep : ∀ i < n, ∀ t, P i t → NextWith (exec (mk (BitVec.ofNat 4 i)) t) (P (i + 1))) :
    NextWith (execAll ((List.range n).map fun i => mk (BitVec.ofNat 4 i)) s) (P n) := by
  induction n with
  | zero => exact nextWith_next.2 h0
  | succ n ih =>
    obtain ⟨t, ht, hP⟩ := ih fun i hi => hstep i (by omega)
    rw [List.range_succ, List.map_append, execAll_append_of_next _ ht, List.map_singleton, execAll_singleton]
    exact hstep n (by omega) t hP

/-! ### A load and a save of one byte (R132, R134, R136) -/

/-- An index of a MotorView fits the index field of its micro-op (R95). -/
theorem motorIndex_toNat {i : Nat} (h : i < 14) : (BitVec.ofNat 4 i).toNat = i := by
  rw [BitVec.toNat_ofNat]
  omega

/-- M_LOAD of an index of the view (R96). -/
theorem exec_mLoad (k : Axis) {i : BitVec 4} (hi : i.toNat ≤ 13) (s : State) :
    exec (.mLoad k i) s = .next (s.mLoad k i.toNat) := if_pos hi

/-- M_SAVE of an index of the view (R96). -/
theorem exec_mSave (k : Axis) {i : BitVec 4} (hi : i.toNat ≤ 13) (s : State) :
    exec (.mSave k i) s = .next (s.mSave k i.toNat) := if_pos hi

/-- SYS_SAVE of an index of the view (R96). -/
theorem exec_sysSave {i : BitVec 4} (hi : i.toNat ≤ 6) (s : State) :
    exec (.sysSave i) s = .next (s.sysSave i.toNat) := if_pos hi

/-- M_LOAD of a written cell draws no free byte (R132). -/
theorem State.mLoad_of_cell {s : State} {k : Axis} {i : Nat} {b : Byte}
    (h : s.cell (s.cfg.motorAddr k i) = some b) : s.mLoad k i = { s with mv := s.mv.set i b } := by
  rw [State.mLoad, State.byteAt_of_cell h, State.drawsAfter_of_cell h]

/-- The later of two stores to one cell is the only one that counts (R122). -/
theorem State.store_store {s : State} (h : Bank.wf s.bank = true) (a v w : Byte) :
    (s.store a v).store a w = s.store a w := by
  simp only [State.store, Bank.write_write h]

/-- Storing the byte that a cell holds changes nothing (R122). -/
theorem State.store_same {s : State} (h : Bank.wf s.bank = true) {a v : Byte} (hv : s.cell a = some v) :
    s.store a v = s := by
  rw [State.store, Bank.write_same h hv]

/-- M_SAVE of a byte that the cell already holds changes nothing (R134). -/
theorem State.mSave_of_cell {s : State} (h : Bank.wf s.bank = true) {k : Axis} {i : Nat}
    (hi : s.cell (s.cfg.motorAddr k i) = some (s.mv.get i)) : s.mSave k i = s := by
  rw [State.mSave, trunc8_toNat, State.store_same h hi]

/-! ### The load and the save of a whole MotorView (R66, R138) -/

/-- `t` is `s` with the first `n` bytes of axis k's span loaded into `MV`. -/
structure State.Loaded (s : State) (k : Axis) (n : Nat) (t : State) : Prop where
  bytes : ∀ i < n, some (t.mv.get i) = s.cell (s.cfg.motorAddr k i)
  frame : t = { s with mv := t.mv }

/-- M_LOAD of the next byte (R132). -/
theorem State.Loaded.mLoad {s t : State} {k : Axis} {i : Nat} (h : s.Loaded k i t) (hi : i < 14)
    (hw : (s.cell (s.cfg.motorAddr k i)).isSome = true) : s.Loaded k (i + 1) (t.mLoad k i) := by
  obtain ⟨hbytes, hframe⟩ := h
  obtain ⟨b, hb⟩ := Option.isSome_iff_exists.1 hw
  have hload : t.mLoad k i = { t with mv := t.mv.set i b } :=
    State.mLoad_of_cell (by rw [hframe]; exact hb)
  rw [hload]
  refine ⟨fun j hj => ?_, by rw [hframe]⟩
  rw [MotorView.get_set _ _ _ _ hi (by omega)]
  split
  · next heq => rw [heq, hb]
  · next hne => exact hbytes j (by omega)

/-- The fourteen loads of a written span (R132). -/
theorem execAll_motorLoads {s : State} (hw : s.SpansWritten) (k : Axis) :
    NextWith (execAll (motorBytes (.mLoad k)) s) (s.Loaded k 14) := by
  refine nextWith_execAll_range ⟨nofun, rfl⟩ 14 fun i hi t ht => ?_
  have hidx := motorIndex_toNat hi
  refine .of_eq (exec_mLoad k (by omega) t) ?_
  rw [hidx]
  exact ht.mLoad hi (hw.2 k i hi)

/-- The fourteen saves of an image that agrees with its span change nothing (R134). -/
theorem execAll_motorSaves_of_cells {s : State} (hb : Bank.wf s.bank = true) {k : Axis}
    (h : ∀ i < 14, s.cell (s.cfg.motorAddr k i) = some (s.mv.get i)) :
    NextWith (execAll (motorBytes (.mSave k)) s) (· = s) := by
  refine nextWith_execAll_range (P := fun _ t => t = s) rfl 14 fun i hi t ht => ?_
  have hidx := motorIndex_toNat hi
  refine .of_eq (exec_mSave k (by omega) t) ?_
  rw [ht, hidx]
  exact State.mSave_of_cell hb (h i hi)

/-- Settles O27: the loads make `MV` the image of the span, so that each save stores the byte its cell holds. -/
theorem loadThenSaveKeepsTheBank : Obligations.LoadThenSaveKeepsTheBank := by
  intro s k _ hb hw
  obtain ⟨t, hload, hbytes, hframe⟩ := execAll_motorLoads hw k
  have hbank : t.bank = s.bank := by rw [hframe]
  have hcells : ∀ i < 14, t.cell (t.cfg.motorAddr k i) = some (t.mv.get i) := fun i hi => by
    rw [hbytes i hi, hframe, State.cell, State.cell]
  obtain ⟨u, hsave, rfl⟩ := execAll_motorSaves_of_cells (hbank ▸ hb) hcells
  exact .of_eq ((execAll_append_of_next _ hload).trans hsave) ⟨hbank, hbytes, hframe⟩

/-! ### A host write before a save (R69, R250, R254) -/

/-- A host write followed by an operation whose meaning is a store to the same cell, of a byte that the write does
not change, is that operation alone. -/
theorem execAll_hostWr_store {i : Instr} {s : State} (hb : Bank.wf s.bank = true) (a d v : Byte)
    (h : exec i s = .next (s.store a v)) (hd : exec i (s.store a d) = .next ((s.store a d).store a v)) :
    NextWith (exec i s) fun t => execAll [.hostWr a d, i] s = .next t := by
  have hwr : execAll [.hostWr a d] s = .next (s.store a d) := rfl
  refine .of_eq h ((execAll_append_of_next [i] hwr).trans ?_)
  rw [execAll_singleton, hd, State.store_store hb]

/-- Settles O28: a save takes its byte from the image, which the host write does not touch, and the later of
the two stores counts. -/
theorem hostWriteBeforeSaveIsLost : Obligations.HostWriteBeforeSaveIsLost := by
  intro s i d hb
  constructor
  · intro k hi
    exact execAll_hostWr_store hb _ d _ (exec_mSave k hi s) (exec_mSave k hi _)
  · intro hi
    exact execAll_hostWr_store hb _ d _ (exec_sysSave hi s) (exec_sysSave hi _)

end Sys2Proof.Machine

/-! # Proofs of the family 30_encoding: decode and encode agree, reserved words are refused -/

namespace Sys2Proof

/-! ### The number of a word -/

/-- A MotorView field word leaves bits 31..24 clear (log entry 3). -/
theorem mregWord_lt {off : Nat} (h : off < 16) (k : Axis) (acc : Access) : mregWord off k acc < 2 ^ 24 := by
  have hk := k.bit_lt
  obtain ⟨w, d, hw, hd, hbits⟩ := acc.bits_cases
  rw [mregWord, hbits]
  omega

/-- A SystemView field word leaves bits 31..24 clear (log entry 3). -/
theorem sregWord_lt {off : Nat} (h : off < 8) (acc : Access) : sregWord off acc < 2 ^ 24 := by
  obtain ⟨w, d, hw, hd, hbits⟩ := acc.bits_cases
  rw [sregWord, hbits]
  omega

/-- A number of 32 bits is the number of its word. -/
theorem toNat_encode {i : Instr} (h : encodeNat i < 2 ^ 32) : (encode i).toNat = encodeNat i := by
  rw [encode, BitVec.toNat_ofNat, Nat.mod_eq_of_lt h]

/-- A field read into a word of its width has the value of the field. -/
theorem toNat_ofNat_field {n hi lo w : Nat} (h : hi + 1 - lo = w) :
    (BitVec.ofNat w (field n hi lo)).toNat = field n hi lo := by
  subst h
  rw [BitVec.toNat_ofNat, field, Nat.mod_mod]

/-- The AXIS bit of a word is that of the axis read from it (R91, R95). -/
theorem bit_axisOfBit_field (n : Nat) : (axisOfBit (field n 8 8)).bit = field n 8 8 :=
  axisOfBit_inv (Nat.mod_lt _ (by decide))

/-- A guarded decoding that succeeds meets its guard and is the guarded operation. -/
theorem guard_of_ite_ok {c : Prop} [Decidable c] {i j : Instr} {e : DecodeError}
    (h : (if c then Except.ok i else .error e) = Except.ok j) : c ∧ j = i := by
  split at h <;> cases h
  exact ⟨‹_›, rfl⟩

/-! ### Stimulus words (R91, R92) -/

/-- A stimulus word is the sum of its fields (R91). -/
theorem stim_eq_fields {n : Nat} (h : n < 2 ^ 32) :
    n = field n 31 28 * 2 ^ 28 + field n 27 17 * 2 ^ 17 + field n 16 16 * 2 ^ 16 + field n 15 8 * 2 ^ 8
      + field n 7 0 := by
  simp only [field]
  omega

/-- The fields of a stimulus word built from them, RSV being 0 (R91). -/
theorem stim_fields_of_eq {n op lvl addr data : Nat}
    (h : n = op * 2 ^ 28 + lvl * 2 ^ 16 + addr * 2 ^ 8 + data)
    (hop : op < 16) (hlvl : lvl < 2) (haddr : addr < 256) (hdata : data < 256) :
    field n 31 28 = op ∧ field n 27 17 = 0 ∧ field n 16 16 = lvl ∧ field n 15 8 = addr ∧
      field n 7 0 = data := by
  subst h
  simp only [field]
  omega

/-- The word of a stimulus operation: the fields that R92 wants to be 0 are 0. -/
theorem exists_stim_fields {i : Instr} (hf : i.format = .stim32) :
    ∃ op lvl addr data, encodeNat i = op * 2 ^ 28 + lvl * 2 ^ 16 + addr * 2 ^ 8 + data ∧
      op < 6 ∧ lvl < 2 ∧ addr < 256 ∧ data < 256 ∧ (op = 5 ∨ lvl = 0) ∧ (op = 2 ∨ data = 0) ∧
      (op = 1 ∨ op = 2 ∨ op = 5 ∨ addr = 0) ∧ (op = 5 → addr < 2) := by
  cases i <;> cases hf
  case nop => exact ⟨0, 0, 0, 0, by decide⟩
  case hostRd a => exact ⟨1, 0, a.toNat, 0, by rw [encodeNat]; omega, by have := a.isLt; omega⟩
  case hostWr a d =>
    exact ⟨2, 0, a.toNat, d.toNat, by rw [encodeNat]; omega, by have := a.isLt; have := d.isLt; omega⟩
  case tick => exact ⟨3, 0, 0, 0, by decide⟩
  case reset => exact ⟨4, 0, 0, 0, by decide⟩
  case setOc k l =>
    exact ⟨5, l.toNat, k.bit, 0, by rw [encodeNat]; omega, by have := l.toNat_lt; have := k.bit_lt; omega⟩

/-- A stimulus operation is encoded in 32 bits (R91). -/
theorem encodeNat_lt_of_stim32 {i : Instr} (hf : i.format = .stim32) : encodeNat i < 2 ^ 32 := by
  obtain ⟨op, lvl, addr, data, hsum, hop, hlvl, haddr, hdata, -⟩ := exists_stim_fields hf
  omega

/-- A stimulus word that decodes is the word of its operation (R92). -/
theorem encodeNat_of_decodeStim {w : Word32} {i : Instr} (h : decodeStim w = .ok i) :
    encodeNat i = w.toNat := by
  have hsum := stim_eq_fields w.isLt
  unfold decodeStim at h
  dsimp only at h
  split at h
  case h_1 hop | h_4 hop | h_5 hop =>
    obtain ⟨⟨hrsv, hlvl, haddr, hdata⟩, rfl⟩ := guard_of_ite_ok h
    simp only [encodeNat]
    omega
  case h_2 hop =>
    obtain ⟨⟨hrsv, hlvl, hdata⟩, rfl⟩ := guard_of_ite_ok h
    simp only [encodeNat, toNat_ofNat_field]
    omega
  case h_3 hop =>
    obtain ⟨⟨hrsv, hlvl⟩, rfl⟩ := guard_of_ite_ok h
    simp only [encodeNat, toNat_ofNat_field]
    omega
  case h_6 hop =>
    obtain ⟨⟨hrsv, haddr, hdata⟩, rfl⟩ := guard_of_ite_ok h
    have hlvl : (field w.toNat 16 16 == 1).toNat = field w.toNat 16 16 := by
      obtain h0 | h1 : field w.toNat 16 16 = 0 ∨ field w.toNat 16 16 = 1 := by simp only [field]; omega
      · rw [h0]; rfl
      · rw [h1]; rfl
    have haxis : field w.toNat 15 8 = field w.toNat 8 8 := by simp only [field] at haddr ⊢; omega
    simp only [encodeNat, hlvl, bit_axisOfBit_field]
    omega
  case h_7 => cases h

/-- A stimulus operation is read back from its word (R92). -/
theorem decodeStim_encode {i : Instr} (hf : i.format = .stim32) : decodeStim (encode i) = .ok i := by
  have hn := toNat_encode (encodeNat_lt_of_stim32 hf)
  cases i <;> cases hf
  case nop => rfl
  case tick => rfl
  case reset => rfl
  case hostRd a =>
    obtain ⟨hop, hrsv, hlvl, haddr, hdata⟩ := stim_fields_of_eq (op := 1) (lvl := 0) (data := 0)
      (hn.trans (by simp only [encodeNat]; omega)) (by decide) (by decide) a.isLt (by decide)
    simp [decodeStim, hop, hrsv, hlvl, haddr, hdata]
  case hostWr a d =>
    obtain ⟨hop, hrsv, hlvl, haddr, hdata⟩ := stim_fields_of_eq (op := 2) (lvl := 0)
      (hn.trans (by simp only [encodeNat]; omega)) (by decide) (by decide) a.isLt d.isLt
    simp [decodeStim, hop, hrsv, hlvl, haddr, hdata]
  case setOc k l =>
    have hk := k.bit_lt
    obtain ⟨hop, hrsv, hlvl, haddr, hdata⟩ := stim_fields_of_eq (op := 5) (addr := k.bit) (data := 0)
      (hn.trans (by simp only [encodeNat]; omega)) (by decide) l.toNat_lt (by omega) (by decide)
    have haddr9 : field (encode (.setOc k l)).toNat 15 9 = 0 := by simp only [field] at haddr ⊢; omega
    have haxis : field (encode (.setOc k l)).toNat 8 8 = k.bit := by simp only [field] at haddr ⊢; omega
    simp [decodeStim, hop, hrsv, hlvl, haddr9, haxis, hdata]

/-! ### Micro-op words (R95, R96) -/

/-- A micro-op word is the sum of its fields (R95). -/
theorem uop_eq_fields {n : Nat} (h : field n 31 16 = 0) (hn : n < 2 ^ 32) :
    n = field n 15 12 * 2 ^ 12 + field n 11 9 * 2 ^ 9 + field n 8 8 * 2 ^ 8 + field n 7 4 * 2 ^ 4
      + field n 3 0 := by
  simp only [field] at h ⊢
  omega

/-- The fields of a micro-op word (R95). -/
theorem uop_fields_of_eq {n cls axis idx : Nat} (h : n = uopWord cls axis idx) (hcls : cls < 16)
    (haxis : axis < 2) (hidx : idx < 16) :
    field n 15 12 = cls ∧ field n 11 9 = 0 ∧ field n 8 8 = axis ∧ field n 7 4 = 0 ∧ field n 3 0 = idx := by
  subst h
  simp only [field, uopWord]
  omega

/-- The word of a well-formed micro-op: a class of R96, an index of the view, and 0 in the fields that R96 wants
to be 0. -/
theorem exists_uop_fields {i : Instr} (hf : i.format = .uop16) (hw : i.WF = true) :
    ∃ cls axis idx, encodeNat i = uopWord cls axis idx ∧ (0 < cls ∧ cls < 8) ∧ axis < 2 ∧ idx < 16 ∧
      (cls = 1 ∨ cls = 6 → idx < 7) ∧ (cls = 2 ∨ cls = 4 → idx < 14) ∧
      (cls = 3 ∨ cls = 5 ∨ cls = 7 → idx = 0) ∧ (cls = 1 ∨ cls = 5 ∨ cls = 6 ∨ cls = 7 → axis = 0) := by
  cases i <;> cases hf
  case sysLoad i => exact ⟨1, 0, i.toNat, rfl, by have := of_decide_eq_true hw; omega⟩
  case mLoad k i => exact ⟨2, k.bit, i.toNat, rfl, by have := of_decide_eq_true hw; have := k.bit_lt; omega⟩
  case mStep k => exact ⟨3, k.bit, 0, rfl, by have := k.bit_lt; omega⟩
  case mSave k i => exact ⟨4, k.bit, i.toNat, rfl, by have := of_decide_eq_true hw; have := k.bit_lt; omega⟩
  case sysStep => exact ⟨5, 0, 0, by decide⟩
  case sysSave i => exact ⟨6, 0, i.toNat, rfl, by have := of_decide_eq_true hw; omega⟩
  case tickEnd => exact ⟨7, 0, 0, by decide⟩

/-- A well-formed micro-op is encoded in 16 bits (R95). -/
theorem encodeNat_lt_of_uop16 {i : Instr} (hf : i.format = .uop16) (hw : i.WF = true) :
    encodeNat i < 2 ^ 16 := by
  obtain ⟨cls, axis, idx, hsum, hcls, haxis, hidx, -⟩ := exists_uop_fields hf hw
  rw [hsum, uopWord]
  omega

/-- A micro-op of a view byte that decodes has an index of the view (R96). -/
theorem decodeIndexed_inv {last idx : Nat} {mk : BitVec 4 → Instr} {i : Instr}
    (h : decodeIndexed last idx mk = .ok i) : idx ≤ last ∧ i = mk (BitVec.ofNat 4 idx) := guard_of_ite_ok h

/-- A micro-op word that decodes is the word of its operation, whose index lies in its view (R96). -/
theorem encodeNat_of_decodeUop {w : Word32} {i : Instr} (h : decodeUop w = .ok i) :
    i.WF = true ∧ encodeNat i = w.toNat := by
  have hidx : (BitVec.ofNat 4 (field w.toNat 3 0)).toNat = field w.toNat 3 0 := toNat_ofNat_field rfl
  have haxis := bit_axisOfBit_field w.toNat
  unfold decodeUop at h
  dsimp only at h
  split at h
  case isFalse => cases h
  case isTrue hmbz =>
    obtain ⟨hhi, hrsv, hmid⟩ := hmbz
    have hsum := uop_eq_fields hhi w.isLt
    split at h
    case h_1 hcls | h_6 hcls =>
      split at h
      case isTrue ha =>
        obtain ⟨hi, rfl⟩ := decodeIndexed_inv h
        simp only [Instr.WF, encodeNat, uopWord, hidx, decide_eq_true_eq]
        omega
      case isFalse => cases h
    case h_2 hcls | h_4 hcls =>
      obtain ⟨hi, rfl⟩ := decodeIndexed_inv h
      simp only [Instr.WF, encodeNat, uopWord, hidx, haxis, decide_eq_true_eq]
      omega
    case h_3 hcls =>
      obtain ⟨hi, rfl⟩ := guard_of_ite_ok h
      simp only [Instr.WF, encodeNat, uopWord, haxis, true_and]
      omega
    case h_5 hcls | h_7 hcls =>
      obtain ⟨⟨ha, hi⟩, rfl⟩ := guard_of_ite_ok h
      simp only [Instr.WF, encodeNat, uopWord, true_and]
      omega
    case h_8 => cases h

/-- A well-formed micro-op is read back from its word (R96): the word fits `seq`, from which the core reads it
back. -/
theorem decodeUop_encode {i : Instr} (hf : i.format = .uop16) (hw : i.WF = true) :
    decodeUop (encode i) = .ok i := by
  have hlt := encodeNat_lt_of_uop16 hf hw
  have hcontainer : (Machine.uopOf i).setWidth 32 = encode i := by
    apply BitVec.eq_of_toNat_eq
    rw [Machine.uopOf, BitVec.toNat_setWidth, BitVec.toNat_setWidth, toNat_encode (by omega)]
    omega
  rw [← hcontainer]
  exact Machine.fetchUop_uopOf hf hw

/-! ### Sub-operation codes (R97) -/

/-- A code that decodes is the code of its sub-operation (R97). -/
theorem encodeNat_of_decodeSubop {w : Word32} {i : Instr} (h : decodeSubop w = .ok i) :
    encodeNat i = w.toNat := by
  unfold decodeSubop at h
  split at h <;> cases h <;> exact Eq.symm ‹_›

/-- A sub-operation is read back from its code (R97). -/
theorem decodeSubop_encode {i : Instr} (hf : i.format = .subop8) : decodeSubop (encode i) = .ok i := by
  cases i <;> cases hf <;> rfl

/-! ### Field words (R98, log entry 3) -/

/-- The bits of a decoded access are the data field and the write strobe. -/
theorem bits_of_decodeAccess {n : Nat} {acc : Access} (h : decodeAccess n = .ok acc) :
    acc.bits = field n 23 16 * 2 ^ 16 + field n 9 9 * 2 ^ 9 := by
  unfold decodeAccess at h
  split at h
  case isTrue hw =>
    cases h
    simp only [Access.bits, toNat_ofNat_field, hw, Nat.one_mul]
  case isFalse hw =>
    split at h
    case isTrue hd =>
      cases h
      simp only [Access.bits, field] at hw hd ⊢
      omega
    case isFalse => cases h

/-- The operation on a MotorView field is encoded at the field's offset (R98). -/
theorem encodeNat_of_motorFieldAt {off : Nat} {k : Axis} {acc : Access} {i : Instr}
    (h : motorFieldAt off k acc = .ok i) : encodeNat i = mregWord off k acc := by
  unfold motorFieldAt at h
  split at h <;> cases h <;> rfl

/-- The operation on a SystemView field is encoded at the field's offset (R98). -/
theorem encodeNat_of_systemFieldAt {off : Nat} {acc : Access} {i : Instr}
    (h : systemFieldAt off acc = .ok i) : encodeNat i = sregWord off acc := by
  unfold systemFieldAt at h
  split at h <;> cases h <;> rfl

/-- Every MREG operation is that of a field of a MotorView, and encoded at its offset (R33, R98). -/
theorem exists_motorFieldAt {i : Instr} (hf : i.format = .mreg) :
    ∃ off k acc, encodeNat i = mregWord off k acc ∧ off < 16 ∧ motorFieldAt off k acc = .ok i := by
  cases i <;> cases hf <;> exact ⟨_, _, _, rfl, by decide, rfl⟩

/-- Every SREG operation is that of a field of the SystemView, and encoded at its offset (R37, R98). -/
theorem exists_systemFieldAt {i : Instr} (hf : i.format = .sreg) :
    ∃ off acc, encodeNat i = sregWord off acc ∧ off < 8 ∧ systemFieldAt off acc = .ok i := by
  cases i <;> cases hf <;> exact ⟨_, _, rfl, by decide, rfl⟩

/-- A MotorView field word that decodes is the word of its operation. -/
theorem encodeNat_of_decodeMreg {w : Word32} {i : Instr} (h : decodeMreg w = .ok i) :
    encodeNat i = w.toNat := by
  have hlt := w.isLt
  unfold decodeMreg at h
  dsimp only at h
  split at h
  case isFalse => cases h
  case isTrue hmbz =>
    split at h
    case h_1 acc hacc =>
      rw [encodeNat_of_motorFieldAt h, mregWord, bits_of_decodeAccess hacc, bit_axisOfBit_field]
      simp only [field] at hmbz ⊢
      omega
    case h_2 => cases h

/-- A SystemView field word that decodes is the word of its operation. -/
theorem encodeNat_of_decodeSreg {w : Word32} {i : Instr} (h : decodeSreg w = .ok i) :
    encodeNat i = w.toNat := by
  have hlt := w.isLt
  unfold decodeSreg at h
  dsimp only at h
  split at h
  case isFalse => cases h
  case isTrue hmbz =>
    split at h
    case h_1 acc hacc =>
      rw [encodeNat_of_systemFieldAt h, sregWord, bits_of_decodeAccess hacc]
      simp only [field] at hmbz ⊢
      omega
    case h_2 => cases h

/-- A MotorView field word decodes to the field at its offset. -/
theorem decodeMreg_of_word {w : Word32} {off : Nat} {k : Axis} {acc : Access} (hoff : off < 16)
    (h : w.toNat = mregWord off k acc) : decodeMreg w = motorFieldAt off k acc := by
  have hk := k.bit_lt
  obtain ⟨s, d, hs, hd, hbits⟩ := acc.bits_cases
  rw [mregWord, hbits] at h
  have hacc : decodeAccess w.toNat = .ok acc := by
    apply decodeAccess_of_fields <;> rw [h, hbits] <;> simp only [field] <;> omega
  have hmbz : field w.toNat 31 24 = 0 ∧ field w.toNat 15 10 = 0 ∧ field w.toNat 7 4 = 0 := by
    rw [h]; simp only [field]; omega
  have hoff : field w.toNat 3 0 = off := by rw [h]; simp only [field]; omega
  have haxis : field w.toNat 8 8 = k.bit := by rw [h]; simp only [field]; omega
  simp only [decodeMreg, if_pos hmbz, hacc, hoff, haxis, axisOfBit_bit]

/-- A SystemView field word decodes to the field at its offset. -/
theorem decodeSreg_of_word {w : Word32} {off : Nat} {acc : Access} (hoff : off < 8)
    (h : w.toNat = sregWord off acc) : decodeSreg w = systemFieldAt off acc := by
  obtain ⟨s, d, hs, hd, hbits⟩ := acc.bits_cases
  rw [sregWord, hbits] at h
  have hacc : decodeAccess w.toNat = .ok acc := by
    apply decodeAccess_of_fields <;> rw [h, hbits] <;> simp only [field] <;> omega
  have hmbz : field w.toNat 31 24 = 0 ∧ field w.toNat 15 10 = 0 ∧ field w.toNat 8 3 = 0 := by
    rw [h]; simp only [field]; omega
  have hoff : field w.toNat 2 0 = off := by rw [h]; simp only [field]; omega
  simp only [decodeSreg, if_pos hmbz, hacc, hoff]

/-- An access to a MotorView field is read back from its word. -/
theorem decodeMreg_encode {i : Instr} (hf : i.format = .mreg) : decodeMreg (encode i) = .ok i := by
  obtain ⟨off, k, acc, hnat, hoff, h⟩ := exists_motorFieldAt hf
  have hlt := mregWord_lt hoff k acc
  rw [decodeMreg_of_word hoff ((toNat_encode (by omega)).trans hnat), h]

/-- An access to a SystemView field is read back from its word. -/
theorem decodeSreg_encode {i : Instr} (hf : i.format = .sreg) : decodeSreg (encode i) = .ok i := by
  obtain ⟨off, acc, hnat, hoff, h⟩ := exists_systemFieldAt hf
  have hlt := sregWord_lt hoff acc
  rw [decodeSreg_of_word hoff ((toNat_encode (by omega)).trans hnat), h]

/-! ### The round trips -/

/-- Only a micro-op has operand values that are reserved (R96). -/
theorem wf_of_format_ne_uop16 {i : Instr} (hf : i.format ≠ .uop16) : i.WF = true := by
  cases i
  case sysLoad | mLoad | mSave | sysSave => exact absurd rfl hf
  all_goals rfl

/-- A word that decodes in a space has the number of its operation, which is well formed. -/
theorem encodeNat_of_decode {f : Format} {w : Word32} {i : Instr} (h : decode f w = .ok i) :
    i.WF = true ∧ encodeNat i = w.toNat := by
  have hf := format_of_decode h
  cases f with
  | stim32 => exact ⟨wf_of_format_ne_uop16 (by simp [hf]), encodeNat_of_decodeStim h⟩
  | uop16 => exact encodeNat_of_decodeUop h
  | subop8 => exact ⟨wf_of_format_ne_uop16 (by simp [hf]), encodeNat_of_decodeSubop h⟩
  | mreg => exact ⟨wf_of_format_ne_uop16 (by simp [hf]), encodeNat_of_decodeMreg h⟩
  | sreg => exact ⟨wf_of_format_ne_uop16 (by simp [hf]), encodeNat_of_decodeSreg h⟩

/-- Settles O1: each encoding space reads its operations back. -/
theorem decodeOfEncode : Obligations.DecodeOfEncode := by
  intro i hw
  cases hf : i.format with
  | stim32 => exact decodeStim_encode hf
  | uop16 => exact decodeUop_encode hf hw
  | subop8 => exact decodeSubop_encode hf
  | mreg => exact decodeMreg_encode hf
  | sreg => exact decodeSreg_encode hf

/-- Settles O2: the fields that a decoder reads or wants to be 0 make up the whole word. -/
theorem decodedWordIsItsEncoding : Obligations.DecodedWordIsItsEncoding := by
  intro f w i h
  obtain ⟨hw, hnat⟩ := encodeNat_of_decode h
  exact ⟨format_of_decode h, hw, encode_of_nat hnat⟩

/-- Settles O5: the words are closed, and the decoder evaluates on each of them. -/
theorem specWordsDecode : Obligations.SpecWordsDecode := by
  unfold Obligations.SpecWordsDecode
  decide

end Sys2Proof

namespace Sys2Proof.Machine

/-! ### Reserved words are refused (R94, R96) -/

/-- A word that decodes to no operation is refused. -/
theorem runWord_of_not_ok {f : Format} {w : Word32} (h : ∀ i, decode f w ≠ .ok i) (r : Refusal) (s : State) :
    runWord f w r s = .refused r := by
  unfold runWord
  split
  case h_1 i hi => exact absurd hi (h i)
  case h_2 => rfl

/-- The core refuses a word of `seq` that decodes to no micro-op. -/
theorem coreStep_of_not_ok {s : State} {w : Uop16} (hs : s.seq = some w) (h : ∀ i, fetchUop w ≠ .ok i) :
    coreStep s = .refused .reservedUop := by
  unfold coreStep
  rw [hs]
  dsimp only
  split
  case h_1 i hi => exact absurd hi (h i)
  case h_2 => rfl

/-- A micro-op read from `seq` is well formed and has the number of the word (R95). -/
theorem encodeNat_of_fetchUop {w : Uop16} {i : Instr} (h : fetchUop w = .ok i) :
    i.format = .uop16 ∧ i.WF = true ∧ encodeNat i = w.toNat := by
  have hn := encodeNat_of_decode h
  have hw : (w.setWidth 32).toNat = w.toNat := BitVec.toNat_setWidth_of_le (by decide)
  rw [hw] at hn
  exact ⟨format_of_decode h, hn⟩

/-- Settles O3: a word that decodes has the fields of its operation's word, and those are not reserved. -/
theorem reservedStimulusIsRefused : Obligations.ReservedStimulusIsRefused := by
  intro s w rest hwf hs hres
  rw [step_of_sched_cons hwf hs]
  refine runWord_of_not_ok (fun i h => ?_) .invalidStimulus _
  obtain ⟨op, lvl, addr, data, hsum, hop, hlvl, haddr, hdata, hmbz⟩ := exists_stim_fields (decodeStim_format h)
  have hfields := stim_fields_of_eq ((encodeNat_of_decodeStim h).symm.trans hsum) (by omega) hlvl haddr hdata
  have haddr9 : field w.toNat 15 9 = field w.toNat 15 8 / 2 := by simp only [field]; omega
  simp only [List.mem_cons, List.not_mem_nil, or_false] at hres
  omega

/-- Settles O4: a word that decodes has the fields of a well-formed micro-op's word, and those are not reserved. -/
theorem reservedMicroOpIsRefused : Obligations.ReservedMicroOpIsRefused := by
  intro s w rest hwf hs hw hres
  have hreserved : ∀ i, fetchUop w ≠ .ok i := by
    intro i h
    obtain ⟨hf, hi, hnat⟩ := encodeNat_of_fetchUop h
    obtain ⟨cls, axis, idx, hsum, hcls, haxis, hidx, hmbz⟩ := exists_uop_fields hf hi
    have hfields := uop_fields_of_eq (hnat.symm.trans hsum) (by omega) haxis hidx
    simp only [List.mem_cons, List.not_mem_nil, or_false] at hres
    omega
  rcases hs with hs | hs
  · rw [step_of_sched_nil hwf hs]
    exact coreStep_of_not_ok hw hreserved
  · rw [step_of_sched_cons hwf hs]
    exact coreStep_of_not_ok hw hreserved

/-- Settles O25: an index outside the view fails the guard of the four indexed micro-ops. -/
theorem reservedIndexIsRefused : Obligations.ReservedIndexIsRefused := by
  intro s k i
  constructor
  · intro hi
    exact ⟨if_neg (by omega), if_neg (by omega)⟩
  · intro hi
    exact ⟨if_neg (by omega), if_neg (by omega)⟩

end Sys2Proof.Machine

/-! # Proofs of the family 40_interface_ops: the host access, NOP and SET_OC as operations -/

namespace Sys2Proof.Machine

/-- HOST_RD is the host read of its cell (R121). -/
theorem exec_hostRd (a : Byte) (s : State) : exec (.hostRd a) s = .next (s.hostRead a) := rfl

/-- HOST_WR is the store of its byte (R122). -/
theorem exec_hostWr (a d : Byte) (s : State) : exec (.hostWr a d) s = .next (s.store a d) := rfl

/-- NOP completes in the same state (R120). -/
theorem exec_nop (s : State) : exec .nop s = .next s := rfl

/-- SET_OC is the update of the overcurrent level of its axis (R123). -/
theorem exec_setOc (k : Axis) (l : Bool) (s : State) : exec (.setOc k l) s = .next (s.setOvercurrent k l) := rfl

/-- The level of axis 1 is a register of axis 1 only. -/
theorem State.setOvercurrent_one (s : State) (l : Bool) : s.setOvercurrent .one l = { s with ax1.oc := l } := rfl

/-- The level of axis 2 is a register of axis 2 only. -/
theorem State.setOvercurrent_two (s : State) (l : Bool) : s.setOvercurrent .two l = { s with ax2.oc := l } := rfl

/-- Settles O14: the cell holds a byte or holds ⊥, and the host read is known in both cases. -/
theorem hostReadReturnsTheCell : Obligations.HostReadReturnsTheCell := by
  intro s a
  rw [exec_hostRd]
  exact ⟨fun b hb => by rw [State.hostRead_of_cell hb], fun hn => by rw [State.hostRead_of_none hn]⟩

/-- Settles O15: a cell after the store is the stored byte at the address and the old cell elsewhere. -/
theorem hostWriteStoresOneCell : Obligations.HostWriteStoresOneCell := by
  intro s a d
  refine .of_eq (exec_hostWr a d s) ⟨?_, fun x hx => ?_, rfl⟩
  · rw [State.cell_store, if_pos rfl]
  · rw [State.cell_store, if_neg hx]

/-- Settles O16: the operation's next state, axis by axis for SET_OC. -/
theorem nopAndSetOvercurrentFrames : Obligations.NopAndSetOvercurrentFrames := by
  intro s l
  refine ⟨exec_nop s, ?_, ?_⟩
  · rw [exec_setOc, State.setOvercurrent_one]
  · rw [exec_setOc, State.setOvercurrent_two]

end Sys2Proof.Machine

/-! # Proofs of the family 41_tick_and_mapper: the tick sequencer, the register view mapper, the phases of an
M_STEP and what it depends on -/

namespace Sys2Proof.Machine

/-! ### A view byte and its cell (R131, R132, R134, R136) -/

/-- SYS_LOAD of an index of the view (R96). -/
theorem exec_sysLoad {i : BitVec 4} (hi : i.toNat ≤ 6) (s : State) :
    exec (.sysLoad i) s = .next (s.sysLoad i.toNat) := if_pos hi

/-- SYS_LOAD of a written cell draws no free byte (R131). -/
theorem State.sysLoad_of_cell {s : State} {i : Nat} {b : Byte} (h : s.cell (s.cfg.sysAddr i) = some b) :
    s.sysLoad i = { s with sv := s.sv.set i b, rr := if i = 4 then b.getLsbD 0 else s.rr } := by
  rw [State.sysLoad, State.byteAt_of_cell h, State.drawsAfter_of_cell h, resetRequest_eq]

/-- Settles O21: the load of a written cell sets one byte of `SV`, and `rr` at the request byte. -/
theorem sysLoadCopiesOneByte : Obligations.SysLoadCopiesOneByte := by
  intro s i b hi hb
  refine .of_eq (exec_sysLoad hi s) ?_
  rw [State.sysLoad_of_cell hb]
  refine ⟨?_, fun j hj hne => ?_, rfl, rfl⟩
  · rw [SysView.get_set _ _ _ _ (by omega) (by omega), if_pos rfl]
  · rw [SysView.get_set _ _ _ _ (by omega) hj, if_neg hne]

/-- Settles O22: the load of a written cell sets one byte of `MV`. -/
theorem motorLoadCopiesOneByte : Obligations.MotorLoadCopiesOneByte := by
  intro s k i b hi hb
  refine .of_eq (exec_mLoad k hi s) ?_
  rw [State.mLoad_of_cell hb]
  refine ⟨?_, fun j hj hne => ?_, rfl⟩
  · rw [MotorView.get_set _ _ _ _ (by omega) (by omega), if_pos rfl]
  · rw [MotorView.get_set _ _ _ _ (by omega) hj, if_neg hne]

/-- M_SAVE stores the byte of the image as it is: a byte passes the truncation of R11 (R134). -/
theorem State.mSave_eq_store (s : State) (k : Axis) (i : Nat) :
    s.mSave k i = s.store (s.cfg.motorAddr k i) (s.mv.get i) := by
  rw [State.mSave, trunc8_toNat]

/-- SYS_SAVE stores the byte of the image as it is (R136). -/
theorem State.sysSave_eq_store (s : State) (i : Nat) :
    s.sysSave i = s.store (s.cfg.sysAddr i) (s.sv.get i) := by
  rw [State.sysSave, trunc8_toNat]

/-- What a store does to the cells, and that it changes the bank alone: HOST_WR is nothing else (R122). -/
theorem State.store_spec (s : State) (a v : Byte) :
    (s.store a v).cell a = some v ∧ (∀ x, x ≠ a → (s.store a v).cell x = s.cell x) ∧
      s.store a v = { s with bank := (s.store a v).bank } :=
  nextWith_next.1 (hostWriteStoresOneCell s a v)

/-- Settles O23: M_SAVE is a store. -/
theorem motorSaveStoresOneByte : Obligations.MotorSaveStoresOneByte := by
  intro s k i hi
  refine .of_eq (exec_mSave k hi s) ?_
  rw [State.mSave_eq_store]
  exact s.store_spec _ _

/-- Settles O24: SYS_SAVE is a store. -/
theorem sysSaveStoresOneByte : Obligations.SysSaveStoresOneByte := by
  intro s i hi
  refine .of_eq (exec_sysSave hi s) ?_
  rw [State.sysSave_eq_store]
  exact s.store_spec _ _

/-- SYS_STEP always completes (R135). -/
theorem exec_sysStep (s : State) : exec .sysStep s = .next s.sysStep := rfl

/-- Settles O26: the bits of System_Status, and the fields that SYS_STEP sets. -/
theorem sysStepComputesTheSystemView : Obligations.SysStepComputesTheSystemView := by
  intro s
  obtain ⟨fault1, fault2, run1, run2, high⟩ := systemStatusOf_bits s.ax1.s s.ax2.s
  exact .of_eq (exec_sysStep s) ⟨rfl, rfl, fault1, fault2, run1, run2, high, rfl, rfl, rfl, rfl, rfl⟩

/-! ### TICK and TICK_END (R130, R137) -/

/-- The number of the first word of SEQ (R130). -/
theorem firstUop_eq : firstUop = 0x1000 := by decide

/-- TICK from IDLE (R130). -/
theorem State.tick_of_idle {s : State} (h : s.seq = none) : s.tick = { s with seq := some firstUop } := by
  simp only [State.tick, h]

/-- TICK while a tick is in progress (R130). -/
theorem State.tick_of_busy {s : State} (h : s.busy = true) :
    s.tick = { s with heldTicks := s.heldTicks + 1 } := by
  obtain ⟨w, hw⟩ := Option.isSome_iff_exists.1 h
  simp only [State.tick, hw]

/-- The start of a held TICK (R130, R137). -/
theorem State.startHeld_of_succ {s : State} {n : Nat} (h : s.heldTicks = n + 1) :
    s.startHeld = { s with heldTicks := n, seq := some firstUop } := by
  simp only [State.startHeld, h]

/-- TICK always completes (R130). -/
theorem exec_tick (s : State) : exec .tick s = .next s.tick := rfl

/-- TICK_END makes the sequencer IDLE (R137). -/
theorem exec_tickEnd (s : State) : exec .tickEnd s = .next { s with seq := none } := rfl

/-- Settles O17: the two cases of TICK, and TICK_END. -/
theorem tickStartsIsHeldAndEnds : Obligations.TickStartsIsHeldAndEnds := by
  intro s
  refine ⟨exec_tickEnd s, fun h => ?_, fun h => ?_⟩
  · rw [exec_tick, State.tick_of_idle h, firstUop_eq]
  · rw [exec_tick, State.tick_of_busy h]

/-- With `seq` IDLE the core starts a held TICK, if there is one (R130). -/
theorem coreStep_of_idle {s : State} (h : s.seq = none) : coreStep s = .next s.startHeld := by
  simp only [coreStep, h]

/-- Settles O18: with nothing scheduled and `seq` IDLE the step is the start of the held TICK. -/
theorem heldTickStartsWhenIdle : Obligations.HeldTickStartsWhenIdle := by
  intro s n hwf hs hseq hheld
  have hidle : s.quiet.seq = none := s.quiet_seq.trans hseq
  have hsucc : s.quiet.heldTicks = n + 1 := s.quiet_heldTicks.trans hheld
  rw [step_of_sched_nil hwf hs, coreStep_of_idle hidle, State.startHeld_of_succ hsucc, firstUop_eq]
  rfl

/-! ### A step of the core sequencer (R130) -/

/-- A step that the core takes, scheduled or with nothing scheduled (log entry 1). -/
theorem step_of_core {s : State} {rest : List Event} (hwf : s.cfg.WF = true)
    (h : (s.sched = [] ∧ rest = []) ∨ s.sched = .core :: rest) :
    step s = coreStep { s.quiet with sched := rest } := by
  rcases h with ⟨hs, rfl⟩ | hs
  · rw [step_of_sched_nil hwf hs, ← hs]
    rfl
  · exact step_of_sched_cons hwf hs

/-- The core performs the micro-op of `seq` and advances. -/
theorem coreStep_of_fetch {s t : State} {w : Uop16} {i : Instr} (hs : s.seq = some w)
    (hi : fetchUop w = .ok i) (hx : exec i s = .next t) : coreStep s = .next { t with seq := nextUop i } := by
  simp only [coreStep, hs, hi, hx, advance]

/-- The word that a micro-op was read from is its word (R95). -/
theorem uopOf_of_fetchUop {w : Uop16} {i : Instr} (h : fetchUop w = .ok i) : uopOf i = w := by
  obtain ⟨-, -, hnat⟩ := encodeNat_of_fetchUop h
  apply BitVec.eq_of_toNat_eq
  have := w.isLt
  rw [uopOf, BitVec.toNat_setWidth, toNat_encode (by omega), hnat]
  omega

/-! ### What an M_STEP writes (R180, R139) -/

/-- What holds between what an M_STEP sees and what it leaves: the part of its frame that does not ask in which
state the axis is. -/
structure Env.Stepped (e f : Env) : Prop where
  oc : f.ax.oc = e.ax.oc
  calls : f.calls = e.calls ++ [⟨e.loc.axis, f.ax.out.duty, f.ax.out.dir⟩]
  mv : f.mv = { e.mv with as := f.mv.as, sw := f.ax.s.sw, ec := f.ax.s.err }
  dirEff : f.ax.s.dirEff = (directionOf e.mv.dir).getD e.ax.s.dirEff
  outDir : f.ax.out.dir = f.ax.s.dirEff
  outStb : f.ax.out.stb = true
  outDone : f.ax.out.done = f.ax.s.done
  prevCmd : f.ax.s.prevCmd = effectiveCommand e.mv

/-- The end of an M_STEP in the terms of `Env.Stepped` (R190, R193), for what the handler left. -/
theorem Env.Stepped.of_finish {e f : Env} (hf : e.SameFrame f)
    (hdir : f.ax.s.dirEff = (directionOf e.mv.dir).getD e.ax.s.dirEff)
    (hcmd : f.loc.cmdEff = effectiveCommand e.mv) (duty : BitVec 7) (code : FaultCode) (mst : Mst) (err : Byte)
    (cnt : BitVec 32) (done : Bool) (m : Motion) : e.Stepped (f.finish duty code mst err cnt done m) where
  oc := hf.oc
  calls := by rw [Env.finish_calls, hf.calls, hf.axis]; rfl
  mv := by rw [← hf.mv]; rfl
  dirEff := hdir
  outDir := rfl
  outStb := rfl
  outDone := rfl
  prevCmd := hcmd

/-- The frame of an M_STEP (R180, R181, R182, R190, R193). -/
theorem Env.mStep_stepped (e : Env) : e.Stepped e.mStep := by
  have hmode := e.front.handle_mode
  obtain ⟨code, mst, err, cnt, done, m, ht⟩ := e.front.handle.tail_eq_finish
  rw [Env.mStep_eq, ht]
  exact .of_finish (e.front_frame.trans e.front.handle_frame) (hmode.dir.trans e.front_dirEff)
    (hmode.cmd.trans e.front_cmdEff) ..

/-- What an M_STEP of axis k starts from: its view, with the locals naming the axis (R180). -/
def State.stepEnv (s : State) (k : Axis) : Env := { s.env k with loc.axis := k }

/-- M_STEP always completes (R180). -/
theorem exec_mStep (k : Axis) (s : State) : exec (.mStep k) s = .next (s.mStep k) := rfl

/-- The frame of an M_STEP, read off the state. -/
theorem State.mStep_stepped (s : State) (k : Axis) : (s.stepEnv k).Stepped (s.stepEnv k).mStep :=
  Env.mStep_stepped _

/-- The OutputPWM call of an M_STEP (R190). -/
theorem State.mStep_call (s : State) (k : Axis) :
    (s.mStep k).calls = s.calls ++ [⟨k, ((s.mStep k).ax k).out.duty, ((s.mStep k).ax k).out.dir⟩] := by
  rw [State.mStep_calls, State.mStep_ax]
  exact (s.mStep_stepped k).calls

/-! ### The micro-ops of a tick (R130) -/

/-- The axes of the OutputPWM calls that an operation makes as a micro-op: that of an M_STEP (R190). -/
def callAxes : Instr → List Axis
  | .mStep k => [k]
  | _ => []

/-- What every micro-op keeps, and the calls it makes. -/
structure State.UopFrame (s : State) (i : Instr) (t : State) : Prop where
  cfg : t.cfg = s.cfg
  sched : t.sched = s.sched
  held : t.heldTicks = s.heldTicks
  calls : ∃ cs : List PwmCall, t.calls = s.calls ++ cs ∧ cs.map PwmCall.axis = callAxes i

/-- A micro-op that makes no call leaves the output history alone. -/
theorem State.UopFrame.of_calls_eq {s t : State} {i : Instr} (hcfg : t.cfg = s.cfg) (hsched : t.sched = s.sched)
    (hheld : t.heldTicks = s.heldTicks) (hcalls : t.calls = s.calls) (hi : callAxes i = []) :
    s.UopFrame i t :=
  ⟨hcfg, hsched, hheld, [], by rw [hcalls, List.append_nil], hi.symm⟩

/-- Every well-formed micro-op completes, and keeps its frame (R131 to R137). -/
theorem exec_uop {i : Instr} (hf : i.format = .uop16) (hw : i.WF = true) (s : State) :
    ∃ t, exec i s = .next t ∧ s.UopFrame i t := by
  cases i <;> cases hf
  case sysLoad i => exact ⟨_, exec_sysLoad (of_decide_eq_true hw) s, .of_calls_eq rfl rfl rfl rfl rfl⟩
  case mLoad k i => exact ⟨_, exec_mLoad k (of_decide_eq_true hw) s, .of_calls_eq rfl rfl rfl rfl rfl⟩
  case mStep k =>
    exact ⟨_, exec_mStep k s, s.mStep_cfg k, s.mStep_sched k, s.mStep_heldTicks k, _, s.mStep_call k, rfl⟩
  case mSave k i => exact ⟨_, exec_mSave k (of_decide_eq_true hw) s, .of_calls_eq rfl rfl rfl rfl rfl⟩
  case sysStep => exact ⟨_, exec_sysStep s, .of_calls_eq rfl rfl rfl rfl rfl⟩
  case sysSave i => exact ⟨_, exec_sysSave (of_decide_eq_true hw) s, .of_calls_eq rfl rfl rfl rfl rfl⟩
  case tickEnd => exact ⟨_, exec_tickEnd s, .of_calls_eq rfl rfl rfl rfl rfl⟩

/-- Settles O8: the micro-op read from `seq` is well formed, so it completes, and the word that follows it in SEQ is
known from its own. -/
theorem stepRunsMicroOp : Obligations.StepRunsMicroOp := by
  intro s w rest i hwf hseq hdec hsched following
  obtain ⟨hf, hw, -⟩ := encodeNat_of_fetchUop (w := w) hdec
  obtain ⟨t, ht, -⟩ := exec_uop hf hw { s.quiet with sched := rest }
  have hnext : nextUop i = following := by
    rw [nextUop_word hf hw, uopOf_of_fetchUop hdec]
  have hseq' : ({ s.quiet with sched := rest } : State).seq = some w := hseq
  refine ⟨t, ht, ?_⟩
  rw [step_of_core hwf hsched, coreStep_of_fetch hseq' hdec ht, hnext]

/-- The seven micro-ops that load, or that save, the SystemView. -/
def systemBytes (mk : BitVec 4 → Instr) : List Instr :=
  (List.range 7).map fun i => mk (BitVec.ofNat 4 i)

/-- The micro-ops of one axis: load, M_STEP, save. -/
def axisOps (k : Axis) : List Instr := motorBytes (.mLoad k) ++ [.mStep k] ++ motorBytes (.mSave k)

/-- SEQ (R130). -/
def tickOps : List Instr :=
  systemBytes .sysLoad ++ axisOps .one ++ axisOps .two ++ [.sysStep] ++ systemBytes .sysSave ++ [.tickEnd]

/-- SEQ is a list of well-formed micro-ops (R95, R96). -/
theorem tickOps_wf : ∀ i ∈ tickOps, i.format = .uop16 ∧ i.WF = true := by decide

/-- SEQ has 74 micro-ops (R260). -/
theorem length_tickOps : tickOps.length = 74 := by decide

/-- SEQ starts at its first micro-op, and each one is followed by the next, the last by IDLE (R130). -/
theorem tickOps_chain :
    tickOps[0]? = some (.sysLoad 0) ∧ ∀ n < 74, tickOps[n]?.bind nextInstr = tickOps[n + 1]? := by decide

/-- The M_STEPs of SEQ (R130). -/
theorem callAxes_tickOps : tickOps.flatMap callAxes = [.one, .two] := by decide

/-- `t` is reached from `s` by the first n micro-ops of SEQ. -/
structure State.InTick (s : State) (n : Nat) (t : State) : Prop where
  seq : t.seq = tickOps[n]?.map uopOf
  cfg : t.cfg = s.cfg
  sched : t.sched = []
  held : t.heldTicks = s.heldTicks
  calls : ∃ cs : List PwmCall, t.calls = s.calls ++ cs ∧
    cs.map PwmCall.axis = (tickOps.take n).flatMap callAxes

/-- A tick starts (R130). -/
theorem State.InTick.start {s : State} (hs : s.sched = []) (hq : s.seq = some firstUop) : s.InTick 0 s where
  seq := by rw [hq, tickOps_chain.1]; rfl
  cfg := rfl
  sched := hs
  held := rfl
  calls := ⟨[], (List.append_nil _).symm, rfl⟩

/-- One step of the block performs the next micro-op of SEQ (R130). -/
theorem State.InTick.step {s t : State} {n : Nat} (h : s.InTick n t) (hwf : s.cfg.WF = true) (hn : n < 74) :
    ∃ u, step t = .next u ∧ s.InTick (n + 1) u := by
  obtain ⟨i, hi⟩ : ∃ i, tickOps[n]? = some i := ⟨_, List.getElem?_eq_getElem (by rwa [length_tickOps])⟩
  obtain ⟨hf, hw⟩ := tickOps_wf i (List.mem_of_getElem? hi)
  have hnext : nextUop i = tickOps[n + 1]?.map uopOf := by
    rw [← tickOps_chain.2 n hn, hi]; rfl
  have hseq : t.quiet.seq = some (uopOf i) := by rw [State.quiet_seq, h.seq, hi]; rfl
  obtain ⟨u, hu, hframe⟩ := exec_uop hf hw t.quiet
  obtain ⟨cs, hcs, hcsAxes⟩ := h.calls
  obtain ⟨ds, hds, hdsAxes⟩ := hframe.calls
  refine ⟨{ u with seq := nextUop i }, ?_, hnext, hframe.cfg.trans h.cfg, hframe.sched.trans h.sched,
    hframe.held.trans h.held, cs ++ ds, ?_, ?_⟩
  · rw [step_of_sched_nil (h.cfg ▸ hwf) h.sched, coreStep_of_fetch hseq (fetchUop_uopOf hf hw) hu]
  · rw [hds, State.quiet_calls, hcs, List.append_assoc]
  · rw [List.map_append, hcsAxes, hdsAxes, List.take_add_one, hi, List.flatMap_append]
    simp

/-- Further steps of a tick (R130): an induction on their number. -/
theorem State.InTick.run {s t : State} {n : Nat} (h : s.InTick n t) (hwf : s.cfg.WF = true) (m : Nat)
    (hm : n + m ≤ 74) : ∃ u : State, Sys2Proof.core.run m t = .next u ∧ s.InTick (n + m) u := by
  induction m generalizing n t with
  | zero => exact ⟨t, rfl, h⟩
  | succ m ih =>
    obtain ⟨u, hu, hnext⟩ := h.step hwf (by omega)
    obtain ⟨v, hv, hlast⟩ := ih hnext (by omega)
    exact ⟨v, (run_succ_of_next m hu).trans hv, by rwa [Nat.add_right_comm] at hlast⟩

/-- Settles O9: the steps of a tick perform SEQ, the list of 74 micro-ops with the M_STEPs of axis 1 and axis 2. -/
theorem tickRunsInSeventyFourSteps : Obligations.TickRunsInSeventyFourSteps := by
  unfold Obligations.TickRunsInSeventyFourSteps
  intro span words s hwf hs hq
  have hwords : words = tickOps.map uopOf := by decide
  have hrun := (State.InTick.start hs (firstUop_eq ▸ hq)).run hwf
  constructor
  · obtain ⟨t, ht, h⟩ := hrun 74 (by omega)
    have hseq : t.seq = none := h.seq
    obtain ⟨cs, hcs, haxes⟩ := h.calls
    rw [Nat.zero_add, List.take_of_length_le length_tickOps.le, callAxes_tickOps, List.map_eq_cons_iff] at haxes
    obtain ⟨c, ds, rfl, hc, haxes⟩ := haxes
    obtain ⟨d, rfl, hd⟩ := List.map_eq_singleton_iff.1 haxes
    exact ⟨t, ht, hseq, congrArg Option.isSome hseq, h.sched, ⟨c, d, hcs, hc, hd⟩, h.held, h.cfg⟩
  · intro n hn
    obtain ⟨t, ht, h⟩ := hrun n (by omega)
    rw [Nat.zero_add] at h
    have hseq : t.seq = words[n]? := by rw [h.seq, hwords, List.getElem?_map]
    have hsome : t.seq.isSome = true := by
      rw [h.seq, Option.isSome_map, List.getElem?_eq_getElem (by rwa [length_tickOps]), Option.isSome_some]
    exact ⟨t, ht, hsome, hsome, hseq⟩

/-! ### M_STEP as a sequence of phases (R180) -/

/-- A view that a phase of an M_STEP of axis k may have left: the parts that `State.putEnv` does not put back are
still those of the state. -/
structure Env.ViewOf (e : Env) (s : State) (k : Axis) : Prop where
  cfg : e.cfg = s.cfg
  rr : e.rr = s.rr
  axis : e.loc.axis = k

/-- A phase that keeps the frame leaves a view. -/
theorem Env.ViewOf.of_frame {s : State} {k : Axis} {e f : Env} (h : e.ViewOf s k) (hf : e.SameFrame f) :
    f.ViewOf s k :=
  ⟨hf.cfg.trans h.cfg, hf.rr.trans h.rr, hf.axis.trans h.axis⟩

/-- A sub-operation performed on the view of an axis (log entry 2). -/
theorem exec_putEnv {i : Instr} {f : Env → Env} (hx : ∀ s, exec i s = .next (s.onLocals f)) {s : State} {k : Axis}
    {e : Env} (h : e.ViewOf s k) : exec i (s.putEnv k e) = .next (s.putEnv k (f e)) := by
  rw [hx, State.onLocals_putEnv f h.cfg h.rr h.axis]

/-- A list of sub-operations performed on the view of an axis: the first one, then the rest. -/
theorem execAll_cons_putEnv {i : Instr} {f : Env → Env} (hx : ∀ s, exec i s = .next (s.onLocals f))
    {is : List Instr} {s : State} {k : Axis} {e : Env} (h : e.ViewOf s k)
    {o : Host.Outcome State Fault Refusal} (hrest : execAll is (s.putEnv k (f e)) = o) :
    execAll (i :: is) (s.putEnv k e) = o := by
  rw [execAll, exec_putEnv hx h]
  exact hrest

/-- P1 to P4 as sub-operations (R181 to R185). -/
theorem execAll_front {s : State} {k : Axis} {e : Env} (h : e.ViewOf s k) :
    execAll [.p1DirSanitize, .p2CmdClamp, .p3ResetError, .p4ModeSelect] (s.putEnv k e) =
      .next (s.putEnv k e.front) := by
  have h1 := h.of_frame e.dirSanitize_frame
  have h2 := h1.of_frame (Env.cmdClamp_frame _)
  have h3 := h2.of_frame (Env.resetError_frame _)
  exact execAll_cons_putEnv (fun _ => rfl) h <| execAll_cons_putEnv (fun _ => rfl) h1 <|
    execAll_cons_putEnv (fun _ => rfl) h2 <| execAll_cons_putEnv (fun _ => rfl) h3 rfl

/-- The handler of a state (R180 P5). -/
def Mst.handler : Mst → Instr
  | .disabled => .p5HandleIdle
  | .onOffActive => .p5HandleOnOff
  | .rampActive => .p5HandleRamp
  | .faulted => .p5HandleIdle

/-- The handler of the state of the axis as a sub-operation (R186 to R188). -/
theorem exec_handler {s : State} {k : Axis} {e : Env} (h : e.ViewOf s k) :
    exec e.ax.s.mst.handler (s.putEnv k e) = .next (s.putEnv k e.handle) := by
  unfold Env.handle
  cases e.ax.s.mst with
  | disabled => exact exec_putEnv (f := Env.handleIdle) (fun _ => rfl) h
  | onOffActive => exact exec_putEnv (f := Env.handleOnOff) (fun _ => rfl) h
  | rampActive => exact exec_putEnv (f := Env.handleRamp) (fun _ => rfl) h
  | faulted => exact exec_putEnv (f := Env.handleIdle) (fun _ => rfl) h

/-- The fault check of P7, in the active states only (R191). -/
def Mst.monitorOps : Mst → List Instr
  | .disabled => []
  | .onOffActive => [.checkError]
  | .rampActive => [.checkError]
  | .faulted => []

/-- P7 as sub-operations (R191). -/
theorem execAll_monitor {s : State} {k : Axis} {e : Env} (h : e.ViewOf s k) :
    execAll e.ax.s.mst.monitorOps (s.putEnv k e) = .next (s.putEnv k e.monitor) := by
  have hcheck : execAll [.checkError] (s.putEnv k e) = .next (s.putEnv k e.checkError) :=
    (execAll_singleton _ _).trans (exec_putEnv (fun _ => rfl) h)
  unfold Env.monitor
  cases hm : e.ax.s.mst with
  | disabled => rfl
  | onOffActive => exact hcheck
  | rampActive => exact hcheck
  | faulted => rfl

/-- The record of `prev_cmd` on the state (R41, R180). -/
theorem State.putEnv_recordCommand (s : State) (k : Axis) (e : Env) :
    (s.putEnv k e).setAx k { (s.putEnv k e).ax k with s.prevCmd := (s.putEnv k e).loc.cmdEff } =
      s.putEnv k e.recordCommand := by
  cases k <;> rfl

/-- P6 to P9 as sub-operations, after the record of `prev_cmd` (R189 to R193). -/
theorem execAll_tail {s : State} {k : Axis} {e : Env} (h : e.ViewOf s k) :
    execAll ([.p6Duty, .p6Actuate] ++ e.ax.s.mst.monitorOps ++ [.p8Status, .p9Writeback])
      (s.putEnv k e.recordCommand) = .next (s.putEnv k e.tail) := by
  have h5 : e.recordCommand.ViewOf s k := ⟨h.cfg, h.rr, h.axis⟩
  have h6 : e.recordCommand.setDuty.ViewOf s k := ⟨h.cfg, h.rr, h.axis⟩
  have h7 : e.recordCommand.setDuty.actuate.ViewOf s k := ⟨h.cfg, h.rr, h.axis⟩
  have h8 := h7.of_frame (Env.monitor_frame _)
  have h9 : e.recordCommand.setDuty.actuate.monitor.status.ViewOf s k := ⟨h8.cfg, h8.rr, h8.axis⟩
  have hact : execAll [.p6Duty, .p6Actuate] (s.putEnv k e.recordCommand) =
      .next (s.putEnv k e.recordCommand.setDuty.actuate) :=
    execAll_cons_putEnv (fun _ => rfl) h5 <| execAll_cons_putEnv (fun _ => rfl) h6 rfl
  have hmon : execAll e.ax.s.mst.monitorOps (s.putEnv k e.recordCommand.setDuty.actuate) =
      .next (s.putEnv k e.recordCommand.setDuty.actuate.monitor) := execAll_monitor h7
  rw [List.append_assoc, execAll_append_of_next _ hact, execAll_append_of_next _ hmon]
  exact execAll_cons_putEnv (fun _ => rfl) h8 <| execAll_cons_putEnv (fun _ => rfl) h9 rfl

/-- Naming the axis in the locals is putting back the view that M_STEP starts from (R180). -/
theorem State.putEnv_stepEnv (s : State) (k : Axis) : s.putEnv k (s.stepEnv k) = { s with loc.axis := k } := by
  cases k <;> rfl

/-- M_STEP puts back what its phases leave, and gives the locals back (R180; log entry 2). -/
theorem State.mStep_eq_putEnv (s : State) (k : Axis) :
    s.mStep k = { s.putEnv k (s.stepEnv k).front.handle.tail with loc := s.loc } := rfl

/-- What M_STEP may write of the state (R139). -/
theorem State.mStep_writes (s : State) (k : Axis) :
    s.mStep k = { s.setAx k ((s.mStep k).ax k) with mv := (s.mStep k).mv, calls := (s.mStep k).calls } := by
  rw [State.mStep_ax, State.mStep_mv, State.mStep_calls, State.mStep, State.putEnv]
  cases k <;> rfl

/-- The Direction of an M_STEP: the last valid one (R181). -/
theorem State.mStep_dirEff (s : State) (k : Axis) :
    ((s.mStep k).ax k).s.dirEff = (directionOf s.mv.dir).getD (s.ax k).s.dirEff := by
  rw [State.mStep_ax]
  exact (s.mStep_stepped k).dirEff

/-- Settles O50: the phases put back one view after the other, and the frame is that of `Env.Stepped`. -/
theorem mStepFrame : Obligations.MStepFrame := by
  intro s k
  have hview : (s.stepEnv k).ViewOf s k := ⟨rfl, rfl, rfl⟩
  have hfront := hview.of_frame (s.stepEnv k).front_frame
  have hstep := s.mStep_stepped k
  refine .of_eq (exec_mStep k s) ⟨⟨s.putEnv k (s.stepEnv k).front, s.putEnv k (s.stepEnv k).front.handle,
    s.putEnv k (s.stepEnv k).front.handle.tail, ?_, ?_, ?_, s.mStep_eq_putEnv k⟩, s.mStep_writes k, ?_,
    s.mStep_call k, ?_, ?_, ?_, ?_, ?_, ?_, ?_, ?_, ?_⟩
  · rw [← State.putEnv_stepEnv]
    exact execAll_front hview
  · rw [State.putEnv_ax]
    exact exec_handler hfront
  · have hmst : (s.stepEnv k).front.handle.ax.s.mst = (s.stepEnv k).front.ax.s.mst :=
      (s.stepEnv k).front.handle_mode.mst
    have htail := execAll_tail (hfront.of_frame (Env.handle_frame _))
    rw [hmst] at htail
    rw [State.putEnv_ax, State.putEnv_recordCommand, ← htail]
    congr 1
    cases (s.stepEnv k).front.ax.s.mst <;> rfl
  · rw [State.mStep_ax]; exact hstep.oc
  · rw [State.mStep_ax, State.mStep_mv]; exact hstep.mv
  · intro h; rw [State.mStep_dirEff, h]; rfl
  · intro h; rw [State.mStep_dirEff, h]; rfl
  · intro h; rw [State.mStep_dirEff, h]; rfl
  · intro h; rw [State.mStep_dirEff, directionOf_none h]; rfl
  · rw [State.mStep_ax]; exact hstep.outDir
  · rw [State.mStep_ax]; exact hstep.outStb
  · rw [State.mStep_ax]; exact hstep.outDone
  · rw [State.mStep_ax, ← effectiveCommand_toNat]; exact congrArg BitVec.toNat hstep.prevCmd

/-! ### What an M_STEP depends on (R139) -/

/-- Two views that agree on everything an M_STEP may read: they may differ in the outputs, the output history and
the locals other than the axis. -/
structure Env.Agrees (e f : Env) : Prop where
  cfg : f.cfg = e.cfg
  mv : f.mv = e.mv
  rr : f.rr = e.rr
  regs : f.ax.s = e.ax.s
  motion : f.ax.m = e.ax.m
  oc : f.ax.oc = e.ax.oc
  axis : f.loc.axis = e.loc.axis

section
variable {e f : Env}

/-- P1 reads the Direction and the registers (R181). -/
theorem Env.Agrees.dirSanitize (h : e.Agrees f) : e.dirSanitize.Agrees f.dirSanitize := by
  rw [Env.dirSanitize_eq, Env.dirSanitize_eq]
  exact ⟨h.cfg, h.mv, h.rr, by simp only [h.mv, h.regs], h.motion, h.oc, h.axis⟩

/-- P2 writes locals only (R182). -/
theorem Env.Agrees.cmdClamp (h : e.Agrees f) : e.cmdClamp.Agrees f.cmdClamp :=
  ⟨h.cfg, h.mv, h.rr, h.regs, h.motion, h.oc, h.axis⟩

/-- CLEAR_ERROR reads the registers (R218). -/
theorem Env.Agrees.clearError (h : e.Agrees f) : e.clearError.Agrees f.clearError :=
  ⟨h.cfg, h.mv, h.rr, by simp only [Env.clearError, h.regs], h.motion, h.oc, h.axis⟩

/-- P3 reads the state of the axis, `rr` and Enable (R183). -/
theorem Env.Agrees.resetError (h : e.Agrees f) : e.resetError.Agrees f.resetError := by
  unfold Env.resetError
  rw [h.regs, h.rr, h.mv]
  split
  · exact h.clearError
  · exact h

/-- TRANSITION reads the limits, the configuration and the axis (R185). -/
theorem Env.Agrees.transition (h : e.Agrees f) (new : Mst) : (e.transition new).Agrees (f.transition new) := by
  by_cases hr : new = .rampActive
  · subst hr
    cases hl : limitsOk e.mv with
    | false =>
      rw [Env.transition_config hl, Env.transition_config (h.mv ▸ hl)]
      exact ⟨h.cfg, h.mv, h.rr, by simp only [h.regs], by simp only [h.cfg, h.axis], h.oc, h.axis⟩
    | true =>
      rw [Env.transition_ramp hl, Env.transition_ramp (h.mv ▸ hl)]
      exact ⟨h.cfg, h.mv, h.rr, by simp only [h.regs], by simp only [h.cfg, h.axis, h.mv], h.oc, h.axis⟩
  · rw [Env.transition_plain e hr, Env.transition_plain f hr]
    exact ⟨h.cfg, h.mv, h.rr, by simp only [h.regs], by simp only [h.cfg, h.axis], h.oc, h.axis⟩

/-- The selection of P4 reads the image and the state of the axis (R184). -/
theorem Env.Agrees.select (h : e.Agrees f) : e.select.Agrees f.select := by
  unfold Env.select
  rw [h.regs, h.mv]
  dsimp only
  split
  · exact h.transition _
  · exact h

/-- P4 answers whether the state changed (R184). -/
theorem Env.Agrees.modeSelect (h : e.Agrees f) :
    e.modeSelect.Agrees f.modeSelect ∧ f.modeSelect.loc.entered = e.modeSelect.loc.entered := by
  have ht := h.select
  refine ⟨⟨ht.cfg, ht.mv, ht.rr, ht.regs, ht.motion, ht.oc, ht.axis⟩, ?_⟩
  simp only [Env.modeSelect, ht.regs, h.regs]

/-- Agreement on the locals of P2 too, which the later phases read (R182). -/
structure Env.AgreesOnCommand (e f : Env) : Prop extends e.Agrees f where
  cmd : f.loc.cmdEff = e.loc.cmdEff
  range : f.loc.rangeBad = e.loc.rangeBad

/-- P1 to P4 read nothing that two agreeing views may differ in, and hand over the same locals. -/
theorem Env.Agrees.front (h : e.Agrees f) :
    e.front.AgreesOnCommand f.front ∧ f.front.loc.entered = e.front.loc.entered := by
  obtain ⟨hagrees, hentered⟩ := h.dirSanitize.cmdClamp.resetError.modeSelect
  exact ⟨⟨hagrees, by rw [Env.front_cmdEff, Env.front_cmdEff, h.mv],
    by rw [Env.front_rangeBad, Env.front_rangeBad, h.mv]⟩, hentered⟩

/-- The retarget test reads the two commands and whether the state was entered (R187). -/
theorem Env.AgreesOnCommand.retargetIfMaterial (h : e.AgreesOnCommand f) (he : f.loc.entered = e.loc.entered) :
    f.retargetIfMaterial.ax.m = e.retargetIfMaterial.ax.m := by
  unfold Env.retargetIfMaterial Env.retarget
  rw [he, h.cfg, h.cmd, h.regs]
  split
  · simp only [h.motion]
  · exact h.motion

/-- What HANDLE_RAMP writes depends on nothing that two agreeing views may differ in. -/
theorem Env.AgreesOnCommand.rampResult (h : e.AgreesOnCommand f) (vreq : F32) (m : Motion) (done : Bool)
    (speed : Byte) : (e.rampResult vreq m done speed).AgreesOnCommand (f.rampResult vreq m done speed) :=
  ⟨⟨h.cfg, h.mv, h.rr, by simp only [Env.rampResult, h.regs], rfl, h.oc, h.axis⟩, h.cmd, h.range⟩

/-- The handlers read the locals of P2 and P4 (R186, R187, R188). -/
theorem Env.AgreesOnCommand.handle (h : e.AgreesOnCommand f) (he : f.loc.entered = e.loc.entered) :
    e.handle.AgreesOnCommand f.handle ∧ f.handle.loc.speed = e.handle.loc.speed := by
  unfold Env.handle
  rw [h.regs]
  have idle : e.handleIdle.AgreesOnCommand f.handleIdle ∧ f.handleIdle.loc.speed = e.handleIdle.loc.speed :=
    ⟨⟨⟨h.cfg, h.mv, h.rr, by simp only [Env.handleIdle, h.regs], h.motion, h.oc, h.axis⟩, h.cmd, h.range⟩, rfl⟩
  cases e.ax.s.mst with
  | disabled => exact idle
  | onOffActive =>
    exact ⟨⟨⟨h.cfg, h.mv, h.rr, by simp only [Env.handleOnOff, h.regs], h.motion, h.oc, h.axis⟩, h.cmd,
      h.range⟩, h.cmd⟩
  | rampActive =>
    dsimp only
    rw [Env.handleRamp_eq, Env.handleRamp_eq, h.retargetIfMaterial he, h.cfg, h.cmd, h.mv]
    exact ⟨h.rampResult _ _ _ _, by rw [Env.rampResult_speed, Env.rampResult_speed]⟩
  | faulted => exact idle

/-- What the end of an M_STEP puts into the axis and the image depends on the speed, the command and what the fault
monitor left. -/
theorem Env.AgreesOnCommand.finish (h : e.AgreesOnCommand f) (hs : f.loc.speed = e.loc.speed) (duty : BitVec 7)
    (c d : FaultCode) (mst : Mst) (err : Byte) (cnt : BitVec 32) (done : Bool) (m : Motion) :
    (f.finish duty c mst err cnt done m).ax = (e.finish duty d mst err cnt done m).ax ∧
      (f.finish duty c mst err cnt done m).mv = (e.finish duty d mst err cnt done m).mv := by
  simp only [Env.finish, h.regs, h.cmd, h.oc, h.mv, hs, and_self]

/-- The phases after the handler read the registers, the profile, the input, the image, the command and the speed
(R189 to R193, R212). -/
theorem Env.AgreesOnCommand.tail (h : e.AgreesOnCommand f) (hs : f.loc.speed = e.loc.speed) :
    f.tail.ax = e.tail.ax ∧ f.tail.mv = e.tail.mv := by
  cases ha : e.ax.s.mst.active with
  | false =>
    rw [Env.tail_inactive ha, Env.tail_inactive (h.regs ▸ ha), h.regs, h.motion]
    exact h.finish hs ..
  | true =>
    have hdet : detectedFault f.ax.oc f.loc.rangeBad
        (countStall f.ax.s.stallCnt f.loc.speed f.loc.cmdEff) f.cfg.stallTicks =
        detectedFault e.ax.oc e.loc.rangeBad
          (countStall e.ax.s.stallCnt e.loc.speed e.loc.cmdEff) e.cfg.stallTicks := by
      rw [h.oc, h.range, h.regs, hs, h.cmd, h.cfg]
    cases hd : detectedFault e.ax.oc e.loc.rangeBad
      (countStall e.ax.s.stallCnt e.loc.speed e.loc.cmdEff) e.cfg.stallTicks with
    | none =>
      rw [Env.tail_active ha hd, Env.tail_active (h.regs ▸ ha) (hdet.trans hd), h.regs, h.motion, hs, h.mv,
        h.cmd]
      exact h.finish hs ..
    | some c =>
      rw [Env.tail_fault ha hd, Env.tail_fault (h.regs ▸ ha) (hdet.trans hd), h.regs, hs, h.mv, h.cfg, h.axis]
      exact h.finish hs ..

/-- Two views that agree on what an M_STEP may read get the same axis and the same image. -/
theorem Env.Agrees.mStep (h : e.Agrees f) : f.mStep.ax = e.mStep.ax ∧ f.mStep.mv = e.mStep.mv := by
  obtain ⟨hfront, hentered⟩ := h.front
  obtain ⟨hhandle, hspeed⟩ := hfront.handle hentered
  exact hhandle.tail hspeed

end

/-- Settles O51: the views of the two states agree, and the call is read off the axis. -/
theorem mStepDependsOnItsAxisOnly : Obligations.MStepDependsOnItsAxisOnly := by
  intro s t k hcfg hmv hrr hregs hmotion hoc
  have hagrees : (t.stepEnv k).Agrees (s.stepEnv k) := ⟨hcfg, hmv, hrr, hregs, hmotion, hoc, rfl⟩
  obtain ⟨hax, himage⟩ := hagrees.mStep
  have hax : (s.mStep k).ax k = (t.mStep k).ax k := by
    rw [State.mStep_ax, State.mStep_ax]; exact hax
  refine .of_eq (exec_mStep k s) (.of_eq (exec_mStep k t) ⟨hax, ?_, ?_⟩)
  · rw [State.mStep_mv, State.mStep_mv]; exact himage
  · rw [State.mStep_call, State.mStep_call, List.drop_left, List.drop_left, hax]

end Sys2Proof.Machine

/-! # Proofs of the family 42_motion_profile: the order of binary32, RAMP_INIT, the steps of UPDATE, the bounds
of R167 -/

namespace Sys2Proof.F32

/-! ### The order of binary32 (R13) -/

/-- The comparison `x ≤ y` holds of two data that are no NaN and in the order of their keys. -/
theorem le_iff {x y : F32} : le x y = true ↔ x.isNan = false ∧ y.isNan = false ∧ x.key ≤ y.key := by
  simp only [le, Bool.and_eq_true, Bool.not_eq_true', decide_eq_true_eq, and_assoc]

/-- The comparison `x = y` holds of two data that are no NaN and have one key. -/
theorem feq_iff {x y : F32} : feq x y = true ↔ x.isNan = false ∧ y.isNan = false ∧ x.key = y.key := by
  simp only [feq, Bool.and_eq_true, Bool.not_eq_true', decide_eq_true_eq, and_assoc]

/-- The comparison `x < y` holds of two data that are no NaN and in the strict order of their keys. -/
theorem lt_iff {x y : F32} : lt x y = true ↔ x.isNan = false ∧ y.isNan = false ∧ x.key < y.key := by
  simp only [lt, Bool.and_eq_true, Bool.not_eq_true', decide_eq_true_eq, and_assoc]

/-- A finite datum is a sign and a magnitude. -/
theorem exists_fin {x : F32} (h : x.isFinite = true) : ∃ s m, x = .fin s m := by
  cases x with
  | nan => cases h
  | inf s => cases h
  | fin s m => exact ⟨s, m, rfl⟩

/-- A finite datum is no NaN. -/
theorem isNan_of_isFinite {x : F32} (h : x.isFinite = true) : x.isNan = false := by
  obtain ⟨s, m, rfl⟩ := exists_fin h
  rfl

@[simp] theorem key_zero : zero.key = 0 := rfl

@[simp] theorem isNan_neg (x : F32) : (neg x).isNan = x.isNan := by cases x <;> rfl
@[simp] theorem isFinite_neg (x : F32) : (neg x).isFinite = x.isFinite := by cases x <;> rfl

@[simp] theorem key_neg (x : F32) : (neg x).key = -x.key := by
  cases x with
  | nan => rfl
  | inf s => cases s <;> rfl
  | fin s m => cases s <;> simp [neg, key]

@[simp] theorem isNan_abs (x : F32) : (abs x).isNan = x.isNan := by cases x <;> rfl

@[simp] theorem key_abs (x : F32) : (abs x).key = x.key.natAbs := by
  cases x with
  | nan => rfl
  | inf s => cases s <;> rfl
  | fin s m => cases s <;> simp [abs, key]

/-- An infinity is above every finite datum and below its negation. -/
theorem key_bounds (x : F32) : -0x7F800000 ≤ x.key ∧ x.key ≤ 0x7F800000 := by
  cases x with
  | nan => exact ⟨by decide, by decide⟩
  | inf s => cases s <;> exact ⟨by decide, by decide⟩
  | fin s m =>
    have := m.isLt
    cases s <;> simp only [key, if_true, Bool.false_eq_true, if_false] <;> omega

/-- A datum between two finite keys is finite. -/
theorem isFinite_of_key {x : F32} (hx : x.isNan = false) (hlo : -0x7F800000 < x.key) (hhi : x.key < 0x7F800000) :
    x.isFinite = true := by
  cases x with
  | nan => cases hx
  | inf s => cases s <;> simp [key] at hlo hhi
  | fin s m => rfl

/-- The key of a finite datum is between those of the infinities. -/
theorem key_lt_of_isFinite {x : F32} (h : x.isFinite = true) : -0x7F800000 < x.key ∧ x.key < 0x7F800000 := by
  obtain ⟨s, m, rfl⟩ := exists_fin h
  have := m.isLt
  cases s <;> simp only [key, if_true, Bool.false_eq_true, if_false] <;> omega

/-! ### The minimum, the maximum and the canonical zero (R13, R14) -/

/-- `fmin` of two data that are no NaN is the lesser one. -/
theorem fmin_spec {x y : F32} (hx : x.isNan = false) (hy : y.isNan = false) :
    (fmin x y).isNan = false ∧ (fmin x y).key = min x.key y.key := by
  unfold fmin
  split
  · rename_i h
    exact ⟨hx, (min_eq_left (le_iff.1 h).2.2).symm⟩
  · rename_i h
    exact ⟨hy, (min_eq_right (le_of_not_ge fun hk => h (le_iff.2 ⟨hx, hy, hk⟩))).symm⟩

/-- `fmax` of two data that are no NaN is the greater one. -/
theorem fmax_spec {x y : F32} (hx : x.isNan = false) (hy : y.isNan = false) :
    (fmax x y).isNan = false ∧ (fmax x y).key = max x.key y.key := by
  unfold fmax
  split
  · rename_i h
    exact ⟨hx, (max_eq_left (le_iff.1 h).2.2).symm⟩
  · rename_i h
    exact ⟨hy, (max_eq_right (le_of_not_ge fun hk => h (le_iff.2 ⟨hy, hx, hk⟩))).symm⟩

/-- `fmin` answers its second operand where the first is a NaN. -/
theorem isNan_fmin {x y : F32} (hy : y.isNan = false) : (fmin x y).isNan = false := by
  unfold fmin
  split
  · rename_i h
    exact (le_iff.1 h).1
  · exact hy

/-- Canonical zero keeps the place in the order. -/
@[simp] theorem key_canon (x : F32) : (canon x).key = x.key := by
  unfold canon
  split
  · rename_i h
    exact (feq_iff.1 h).2.2.symm
  · rfl

@[simp] theorem isNan_canon (x : F32) : (canon x).isNan = x.isNan := by
  unfold canon
  split
  · rename_i h
    exact (feq_iff.1 h).1.symm
  · rfl

/-- Canonical zero of a number is a number. -/
theorem isFinite_canon {x : F32} (h : x.isFinite = true) : (canon x).isFinite = true := by
  unfold canon
  split
  · rfl
  · exact h

/-- Canonical zero does not change what a value equals (R14). -/
theorem feq_canon {x y : F32} (h : feq x y = true) : feq (canon x) y = true := by
  rw [feq_iff, isNan_canon, key_canon]
  exact feq_iff.1 h

/-! ### Rounding keeps the order (R13) -/

@[simp] theorem units_zero : units 0 = 0 := rfl

/-- A magnitude at or below the exact value is at or below its rounding. -/
theorem le_roundMag {num den b : Nat} (hden : 0 < den) (h : units b * den ≤ num) : b ≤ roundMag num den := by
  by_contra hlt
  have hnear := roundingIsToNearestEven num den hden b (by omega)
  have hu := Nat.mul_lt_mul_of_pos_right (units_strictMono (Nat.lt_of_not_le hlt)) hden
  simp only [Int.abs_eq_natAbs, ← Nat.cast_mul] at hnear
  omega

/-- A magnitude at or above the exact value is at or above its rounding. -/
theorem roundMag_le {num den b : Nat} (hden : 0 < den) (h : num ≤ units b * den) : roundMag num den ≤ b := by
  by_contra hlt
  have hnear := roundingIsToNearestEven num den hden b (by omega)
  have hu := Nat.mul_lt_mul_of_pos_right (units_strictMono (Nat.lt_of_not_le hlt)) hden
  simp only [Int.abs_eq_natAbs, ← Nat.cast_mul] at hnear
  omega

/-- Rounding is monotone: a crossing would put the greater exact value nearer to the lesser result. -/
theorem roundMag_mono {num num' den : Nat} (hden : 0 < den) (h : num ≤ num') :
    roundMag num den ≤ roundMag num' den := by
  rcases Nat.eq_or_lt_of_le h with rfl | h
  · exact Nat.le_refl _
  by_contra hlt
  have hnear := roundingIsToNearestEven num den hden (roundMag num' den) (by omega)
  have hnear' := roundingIsToNearestEven num' den hden (roundMag num den) (by omega)
  have hu := Nat.mul_lt_mul_of_pos_right (units_strictMono (Nat.lt_of_not_le hlt)) hden
  simp only [Int.abs_eq_natAbs, ← Nat.cast_mul] at hnear hnear'
  omega

@[simp] theorem isNan_ofRatio (s : Bool) (num den : Nat) : (ofRatio s num den).isNan = false := by
  unfold ofRatio
  dsimp only
  split <;> rfl

/-- The place in the order of a rounded ratio: its magnitude, at most that of an infinity, with the sign. -/
theorem key_ofRatio (s : Bool) (num den : Nat) :
    (ofRatio s num den).key =
      if s then -((min (roundMag num den) 0x7F800000 : Nat) : Int)
      else ((min (roundMag num den) 0x7F800000 : Nat) : Int) := by
  unfold ofRatio
  dsimp only
  split <;> rename_i h
  · rw [Nat.min_eq_left h.le]; rfl
  · rw [Nat.min_eq_right (Nat.le_of_not_lt h)]; rfl

/-- A rounded ratio is finite exactly when its magnitude does not overflow. -/
theorem isFinite_ofRatio {s : Bool} {num den : Nat} :
    (ofRatio s num den).isFinite = true ↔ roundMag num den < 0x7F800000 := by
  unfold ofRatio
  dsimp only
  split <;> rename_i h
  · exact iff_of_true rfl h
  · exact iff_of_false (by simp [isFinite]) h

@[simp] theorem isNan_ofSum (b : Bool) (x : Int) : (ofSum b x).isNan = false := by
  unfold ofSum
  split
  · rfl
  · exact isNan_ofRatio _ _ _

/-- The place in the order of a rounded sum: the rounding of its magnitude with its sign. -/
theorem key_ofSum (b : Bool) (x : Int) :
    (ofSum b x).key = if x < 0 then -((min (roundMag x.natAbs 1) 0x7F800000 : Nat) : Int)
      else ((min (roundMag x.natAbs 1) 0x7F800000 : Nat) : Int) := by
  unfold ofSum
  split
  · subst_vars
    cases b <;> rfl
  · rw [key_ofRatio]
    simp only [decide_eq_true_eq]

/-- Rounding does not depend on the sign. -/
theorem key_ofSum_neg (b c : Bool) (x : Int) : (ofSum b (-x)).key = -(ofSum c x).key := by
  rw [key_ofSum, key_ofSum, Int.natAbs_neg]
  rcases lt_trichotomy x 0 with h | rfl | h
  · rw [if_neg (by omega), if_pos h, Int.neg_neg]
  · rfl
  · rw [if_pos (by omega), if_neg (by omega)]

@[simp] theorem value_neg (s : Bool) (m : Nat) : value (!s) m = -value s m := by
  cases s <;> simp [value]

@[simp] theorem value_zero (s : Bool) : value s 0 = 0 := by cases s <;> rfl

@[simp] theorem key_fin_false (m : Fin 0x7F800000) : (F32.fin false m).key = m := rfl
@[simp] theorem key_fin_true (m : Fin 0x7F800000) : (F32.fin true m).key = -m := rfl
@[simp] theorem value_false (m : Nat) : value false m = units m := rfl
@[simp] theorem value_true (m : Nat) : value true m = -units m := rfl

/-- A finite datum at or below an exact sum is at or below its rounding. -/
theorem key_le_key_ofSum {s b : Bool} {m : Fin 0x7F800000} {x : Int} (h : value s m ≤ x) :
    (F32.fin s m).key ≤ (ofSum b x).key := by
  have hm := m.isLt
  rw [key_ofSum]
  cases s with
  | false =>
    rw [value_false] at h
    have hr : (m : Nat) ≤ roundMag x.natAbs 1 := le_roundMag Nat.one_pos (by omega)
    rw [key_fin_false, if_neg (by omega)]
    omega
  | true =>
    rw [value_true] at h
    rw [key_fin_true]
    split
    · have hr : roundMag x.natAbs 1 ≤ m := roundMag_le Nat.one_pos (by omega)
      omega
    · omega

/-- The exact values of finite data are in the order of their keys. -/
theorem value_le_value {s t : Bool} {a b : Fin 0x7F800000} (h : (F32.fin s a).key ≤ (F32.fin t b).key) :
    value s a ≤ value t b := by
  have hmono : ∀ {i j : Nat}, (i : Int) ≤ j → (units i : Int) ≤ units j :=
    fun h => Int.ofNat_le.2 (units_strictMono.monotone (Int.ofNat_le.1 h))
  cases s <;> cases t <;> simp only [key_fin_false, key_fin_true, value_false, value_true] at h ⊢
  · exact hmono h
  · -- a datum ≥ 0 below one ≤ 0: both are zeros
    have ha : (a : Nat) = 0 := by omega
    have hb : (b : Nat) = 0 := by omega
    rw [ha, hb, units_zero]
    decide
  · omega
  · exact Int.neg_le_neg (hmono (Int.neg_le_neg_iff.1 h))

/-! ### The order of sums (R13) -/

/-- A sum with a finite term is a NaN only where the other is. -/
theorem isNan_add {x y : F32} (hx : x.isFinite = true) (hy : y.isNan = false) : (add x y).isNan = false := by
  obtain ⟨s, a, rfl⟩ := exists_fin hx
  cases y with
  | nan => cases hy
  | inf t => rfl
  | fin t b => exact isNan_ofSum _ _

/-- The sum of the negated terms is at the negated place in the order. -/
theorem key_add_neg {x : F32} (hx : x.isFinite = true) (y : F32) :
    (add (neg x) (neg y)).key = -(add x y).key := by
  obtain ⟨s, a, rfl⟩ := exists_fin hx
  cases y with
  | nan => rfl
  | inf t => exact key_neg (.inf t)
  | fin t b =>
    simp only [neg, add, value_neg, ← Int.neg_add]
    exact key_ofSum_neg _ _ _

/-- Adding a term ≥ 0 does not go down. -/
theorem key_le_key_add {x y : F32} (hx : x.isFinite = true) (hy : y.isNan = false) (h : 0 ≤ y.key) :
    x.key ≤ (add x y).key := by
  obtain ⟨s, a, rfl⟩ := exists_fin hx
  cases y with
  | nan => cases hy
  | inf t =>
    cases t with
    | false => exact (key_bounds _).2
    | true => exact absurd h (by decide)
  | fin t b =>
    have hb : value false (0 : Fin 0x7F800000) ≤ value t b := value_le_value h
    exact key_le_key_ofSum (by rw [Fin.val_zero, value_zero] at hb; omega)

/-- Adding a term ≤ 0 does not go up. -/
theorem key_add_le_key {x y : F32} (hx : x.isFinite = true) (hy : y.isNan = false) (h : y.key ≤ 0) :
    (add x y).key ≤ x.key := by
  have hneg := key_le_key_add (x := neg x) (y := neg y) (by rwa [isFinite_neg]) (by rwa [isNan_neg])
    (by rw [key_neg]; omega)
  rw [key_add_neg hx, key_neg] at hneg
  omega

/-- A sum is ≥ 0 where one term is at least the negation of the other. -/
theorem key_add_nonneg {x y : F32} (hx : x.isFinite = true) (hy : y.isFinite = true) (h : -y.key ≤ x.key) :
    0 ≤ (add x y).key := by
  obtain ⟨s, a, rfl⟩ := exists_fin hx
  obtain ⟨t, b, rfl⟩ := exists_fin hy
  rw [← key_neg] at h
  have hv : value (!t) b ≤ value s a := value_le_value h
  rw [value_neg] at hv
  exact key_le_key_ofSum (s := false) (m := 0) (by rw [Fin.val_zero, value_zero]; omega)

/-- A sum is ≤ 0 where one term is at most the negation of the other. -/
theorem key_add_nonpos {x y : F32} (hx : x.isFinite = true) (hy : y.isFinite = true) (h : x.key ≤ -y.key) :
    (add x y).key ≤ 0 := by
  have hneg := key_add_nonneg (x := neg x) (y := neg y) (by rwa [isFinite_neg]) (by rwa [isFinite_neg])
    (by rw [key_neg, key_neg]; omega)
  rw [key_add_neg hx] at hneg
  omega

/-- A finite datum minus one at the same place is a zero. -/
theorem feq_sub_zero {x y : F32} (hx : x.isFinite = true) (hy : y.isFinite = true) (h : x.key = y.key) :
    feq (sub x y) zero = true := by
  have hy' : (neg y).isFinite = true := by rwa [isFinite_neg]
  have hlo : 0 ≤ (sub x y).key := key_add_nonneg hx hy' (by rw [key_neg]; omega)
  have hhi : (sub x y).key ≤ 0 := key_add_nonpos hx hy' (by rw [key_neg]; omega)
  exact feq_iff.2 ⟨isNan_add hx (isNan_of_isFinite hy'), rfl, by rw [key_zero]; omega⟩

/-- Adding a zero to a finite datum gives a finite datum. -/
theorem isFinite_add_zero {x y : F32} (hx : x.isFinite = true) (hy : y.isNan = false) (h : y.key = 0) :
    (add x y).isFinite = true := by
  have hbounds := key_lt_of_isFinite hx
  have hlo := key_le_key_add hx hy h.ge
  have hhi := key_add_le_key hx hy h.le
  exact isFinite_of_key (isNan_add hx hy) (by omega) (by omega)

/-! ### Products and quotients (R13) -/

/-- A product with a finite factor that is not 0 is a NaN only where the other is. -/
theorem isNan_mul {x y : F32} (hx : x.isNan = false) (hy : y.isFinite = true) (h : y.key ≠ 0) :
    (mul x y).isNan = false := by
  obtain ⟨t, b, rfl⟩ := exists_fin hy
  have hb : b ≠ 0 := by rintro rfl; cases t <;> exact h rfl
  cases x with
  | nan => cases hx
  | inf s => rw [mul, if_neg hb]; rfl
  | fin s a => exact isNan_ofRatio _ _ _

/-- A product of finite factors is no NaN. -/
theorem isNan_mul_of_isFinite {x y : F32} (hx : x.isFinite = true) (hy : y.isFinite = true) :
    (mul x y).isNan = false := by
  obtain ⟨s, a, rfl⟩ := exists_fin hx
  obtain ⟨t, b, rfl⟩ := exists_fin hy
  exact isNan_ofRatio _ _ _

/-- A quotient by a finite divisor that is not 0 is a NaN only where the dividend is. -/
theorem isNan_div {x y : F32} (hx : x.isNan = false) (hy : y.isFinite = true) (h : y.key ≠ 0) :
    (div x y).isNan = false := by
  obtain ⟨t, b, rfl⟩ := exists_fin hy
  have hb : b ≠ 0 := by rintro rfl; cases t <;> exact h rfl
  cases x with
  | nan => cases hx
  | inf s => rfl
  | fin s a => rw [div, if_neg hb]; exact isNan_ofRatio _ _ _

/-- A zero rounds to a zero. -/
theorem key_ofRatio_zero (s : Bool) (den : Nat) (hden : 0 < den) : (ofRatio s 0 den).key = 0 := by
  have h : roundMag 0 den = 0 := Nat.le_zero.1 (roundMag_le hden (Nat.zero_le _))
  rw [key_ofRatio, h]
  cases s <;> rfl

/-- A finite datum ≥ 0 is its magnitude with a sign, which is negative for the negative zero only. -/
theorem exists_fin_of_nonneg {x : F32} (h : x.isFinite = true) (h0 : 0 ≤ x.key) :
    ∃ s m, x = .fin s m ∧ x.key = m ∧ (s = true → m = 0) := by
  obtain ⟨s, m, rfl⟩ := exists_fin h
  cases s with
  | false => exact ⟨false, m, rfl, rfl, nofun⟩
  | true =>
    have hm : m = 0 := Fin.ext (by rw [key_fin_true] at h0; rw [Fin.val_zero]; omega)
    subst hm
    exact ⟨true, 0, rfl, rfl, fun _ => rfl⟩

/-- A product of finite factors ≥ 0 is ≥ 0. -/
theorem key_mul_nonneg {x y : F32} (hx : x.isFinite = true) (hy : y.isFinite = true) (hx0 : 0 ≤ x.key)
    (hy0 : 0 ≤ y.key) : 0 ≤ (mul x y).key := by
  obtain ⟨s, a, rfl, -, ha⟩ := exists_fin_of_nonneg hx hx0
  obtain ⟨t, b, rfl, -, hb⟩ := exists_fin_of_nonneg hy hy0
  have hzero : ∀ r : Bool, 0 ≤ (ofRatio r 0 (2 ^ 149)).key := fun r => (key_ofRatio_zero r _ (by decide)).ge
  rw [mul]
  cases s with
  | true => rw [ha rfl, Fin.val_zero, units_zero, Nat.zero_mul]; exact hzero _
  | false =>
    cases t with
    | true => rw [hb rfl, Fin.val_zero, units_zero, Nat.mul_zero]; exact hzero _
    | false => rw [key_ofRatio]; exact Int.natCast_nonneg _

/-- A finite datum times a zero is a zero. -/
theorem key_mul_zero {x y : F32} (hx : x.isFinite = true) (hy : y.isFinite = true) (h : y.key = 0) :
    (mul x y).key = 0 := by
  obtain ⟨s, a, rfl⟩ := exists_fin hx
  obtain ⟨t, b, rfl, hb, -⟩ := exists_fin_of_nonneg hy h.ge
  have hb0 : (b : Nat) = 0 := by omega
  rw [mul, hb0, units_zero, Nat.mul_zero]
  exact key_ofRatio_zero _ _ (Nat.two_pow_pos _)

/-- The factors of a finite product with a finite factor are finite. -/
theorem isFinite_of_mul {x k : F32} (hk : k.isFinite = true) (h : (mul x k).isFinite = true) :
    x.isFinite = true := by
  obtain ⟨t, m, rfl⟩ := exists_fin hk
  cases x with
  | nan => cases h
  | inf s => rw [mul] at h; split at h <;> cases h
  | fin s b => rfl

/-- The products of a finite factor ≥ 0 with lesser factors ≥ 0 are finite as well, and ≥ 0. -/
theorem mul_of_le {x y k : F32} (hx : x.isNan = false) (hx0 : 0 ≤ x.key) (hxy : x.key ≤ y.key)
    (hk : k.isFinite = true) (hk0 : 0 ≤ k.key) (h : (mul y k).isFinite = true) :
    (mul x k).isFinite = true ∧ 0 ≤ (mul x k).key := by
  have hy := isFinite_of_mul hk h
  have hbound := key_lt_of_isFinite hy
  have hxfin := isFinite_of_key hx (by omega) (by omega)
  refine ⟨?_, key_mul_nonneg hxfin hk hx0 hk0⟩
  obtain ⟨t, m, rfl⟩ := exists_fin hk
  obtain ⟨r, a, rfl, ha, -⟩ := exists_fin_of_nonneg hxfin hx0
  obtain ⟨s, b, rfl, hb, -⟩ := exists_fin_of_nonneg hy (hx0.trans hxy)
  have hab : (a : Nat) ≤ b := by omega
  rw [mul, isFinite_ofRatio] at h ⊢
  exact (roundMag_mono (Nat.two_pow_pos _)
    (Nat.mul_le_mul_right _ (units_strictMono.monotone hab))).trans_lt h

@[simp] theorem isNan_ofNat (n : Nat) : (ofNat n).isNan = false := isNan_ofRatio _ _ _

/-- A converted integer is ≥ 0. -/
theorem key_ofNat_nonneg (n : Nat) : 0 ≤ (ofNat n).key := by
  rw [ofNat, key_ofRatio]
  exact Int.natCast_nonneg _

/-- Converting keeps the order of the integers. -/
theorem key_ofNat_mono {n n' : Nat} (h : n ≤ n') : (ofNat n).key ≤ (ofNat n').key := by
  rw [ofNat, ofNat, key_ofRatio, key_ofRatio]
  have hmono : roundMag (n * 2 ^ 149) 1 ≤ roundMag (n' * 2 ^ 149) 1 :=
    roundMag_mono Nat.one_pos (Nat.mul_le_mul_right _ h)
  simp only [Bool.false_eq_true, if_false]
  omega

/-- A positive datum is finite and above 0 (R8). -/
theorem positive_iff {x : F32} : x.positive = true ↔ x.isFinite = true ∧ 0 < x.key := by
  rw [positive, Bool.and_eq_true, lt_iff]
  exact and_congr_right fun h => ⟨fun hl => hl.2.2, fun hk => ⟨rfl, isNan_of_isFinite h, hk⟩⟩

end Sys2Proof.F32

namespace Sys2Proof.Machine

/-! ### A value within a bound (R160, R161, R162) -/

/-- `−bound ≤ x ≤ bound`, by the keys. -/
theorem f32Within_iff {b x : F32} :
    F32Within b x ↔ b.isNan = false ∧ x.isNan = false ∧ -b.key ≤ x.key ∧ x.key ≤ b.key := by
  simp only [F32Within, F32.le_iff, F32.isNan_neg, F32.key_neg]
  exact ⟨fun ⟨⟨hb, hx, hlo⟩, _, _, hhi⟩ => ⟨hb, hx, hlo, hhi⟩,
    fun ⟨hb, hx, hlo, hhi⟩ => ⟨⟨hb, hx, hlo⟩, hx, hb, hhi⟩⟩

/-- A value within a bound is no NaN. -/
theorem F32Within.isNan {b x : F32} (h : F32Within b x) : x.isNan = false := (f32Within_iff.1 h).2.1

/-- A value within a finite bound is finite. -/
theorem F32Within.isFinite {b x : F32} (h : F32Within b x) (hb : b.isFinite = true) : x.isFinite = true := by
  obtain ⟨-, hx, hlo, hhi⟩ := f32Within_iff.1 h
  have hkey := F32.key_lt_of_isFinite hb
  exact F32.isFinite_of_key hx (by omega) (by omega)

/-- The bounds are symmetric. -/
theorem F32Within.neg {b x : F32} (h : F32Within b x) : F32Within b (F32.neg x) := by
  rw [f32Within_iff, F32.isNan_neg, F32.key_neg]
  obtain ⟨hb, hx, hlo, hhi⟩ := f32Within_iff.1 h
  exact ⟨hb, hx, by omega, by omega⟩

/-- A mirrored value (R159). -/
theorem F32Within.signed {b x : F32} (h : F32Within b x) (up : Bool) : F32Within b (signed up x) := by
  cases up
  · exact h.neg
  · exact h

/-- Canonical zero keeps a value within its bound (R14). -/
theorem F32Within.canon {b x : F32} (h : F32Within b x) : F32Within b (F32.canon x) := by
  rw [f32Within_iff, F32.isNan_canon, F32.key_canon]
  exact f32Within_iff.1 h

/-- 0 is within every bound ≥ 0. -/
theorem F32Within.zero {b : F32} (h : F32.le F32.zero b = true) : F32Within b F32.zero := by
  obtain ⟨-, hb, h0⟩ := F32.le_iff.1 h
  rw [F32.key_zero] at h0
  exact f32Within_iff.2 ⟨hb, rfl, by rw [F32.key_zero]; omega, h0⟩

/-- The place in the order of a limited value. -/
theorem limitTo_spec {b x : F32} (hb : b.isNan = false) (hx : x.isNan = false) :
    (limitTo b x).isNan = false ∧ (limitTo b x).key = min b.key (max (-b.key) x.key) := by
  obtain ⟨hmax, hkmax⟩ := F32.fmax_spec (x := F32.neg b) (by rwa [F32.isNan_neg]) hx
  obtain ⟨hmin, hkmin⟩ := F32.fmin_spec hb hmax
  rw [hkmax, F32.key_neg] at hkmin
  exact ⟨hmin, hkmin⟩

/-- A limited value is within its bound; a NaN would pass the limit. -/
theorem F32Within.limitTo {b x : F32} (hb : F32.le F32.zero b = true) (hx : x.isNan = false) :
    F32Within b (limitTo b x) := by
  obtain ⟨-, hbn, h0⟩ := F32.le_iff.1 hb
  obtain ⟨hn, hk⟩ := limitTo_spec hbn hx
  rw [F32.key_zero] at h0
  exact f32Within_iff.2 ⟨hbn, hn, by omega, by omega⟩

/-! ### The acceleration of UPDATE stays within AM (R157, R159) -/

/-- What the acceleration laws of UPDATE ask of AM and `dA`, and of the acceleration before. -/
structure AccelStep (am dA a : F32) : Prop where
  am_nonneg : F32.le F32.zero am = true
  dA_nonneg : F32.le F32.zero dA = true
  finite : a.isFinite = true
  within : F32Within am a

section
variable {am dA a : F32}

/-- The mirrored acceleration meets the same laws (R159). -/
theorem AccelStep.signed (h : AccelStep am dA a) (up : Bool) : AccelStep am dA (signed up a) where
  am_nonneg := h.am_nonneg
  dA_nonneg := h.dA_nonneg
  finite := by
    cases up
    · exact (F32.isFinite_neg a).trans h.finite
    · exact h.finite
  within := h.within.signed up

/-- An acceleration that decays toward 0 stays between its old value and 0 (R157). -/
theorem AccelStep.decayed (h : AccelStep am dA a) : F32Within am (decayedAccel dA a) := by
  obtain ⟨-, hdA, hdA0⟩ := F32.le_iff.1 h.dA_nonneg
  obtain ⟨ham, ha, hlo, hhi⟩ := f32Within_iff.1 h.within
  rw [F32.key_zero] at hdA0
  unfold decayedAccel
  by_cases hle : F32.le (F32.abs a) dA = true
  · rw [if_pos hle]
    exact .zero h.am_nonneg
  rw [if_neg hle]
  -- `dA` is below `|a|`, so it is finite and the acceleration cannot cross 0
  have hlt : dA.key < a.key.natAbs := by
    by_contra hge
    exact hle (F32.le_iff.2 ⟨by rwa [F32.isNan_abs], hdA, by rw [F32.key_abs]; omega⟩)
  have hka := F32.key_lt_of_isFinite h.finite
  have hfin : dA.isFinite = true := F32.isFinite_of_key hdA (by omega) (by omega)
  split
  · rename_i hpos
    have hpos := (F32.lt_iff.1 hpos).2.2
    rw [F32.key_zero] at hpos
    have hup : (F32.sub a dA).key ≤ a.key :=
      F32.key_add_le_key h.finite (by rwa [F32.isNan_neg]) (by rw [F32.key_neg]; omega)
    have hdown : 0 ≤ (F32.sub a dA).key :=
      F32.key_add_nonneg h.finite (by rwa [F32.isFinite_neg]) (by rw [F32.key_neg]; omega)
    exact f32Within_iff.2 ⟨ham, F32.isNan_add h.finite (by rwa [F32.isNan_neg]), by omega, by omega⟩
  · rename_i hpos
    have hneg : a.key ≤ 0 := by
      by_contra hgt
      exact hpos (F32.lt_iff.2 ⟨rfl, ha, by rw [F32.key_zero]; omega⟩)
    have hdown : a.key ≤ (F32.add a dA).key := F32.key_le_key_add h.finite hdA hdA0
    have hup : (F32.add a dA).key ≤ 0 := F32.key_add_nonpos h.finite hfin (by omega)
    exact f32Within_iff.2 ⟨ham, F32.isNan_add h.finite hdA, by omega, by omega⟩

/-- The first candidate of R159: one jerk step up, at most AM. -/
theorem AccelStep.up (h : AccelStep am dA a) : F32Within am (F32.fmin am (F32.add a dA)) := by
  obtain ⟨-, hdA, hdA0⟩ := F32.le_iff.1 h.dA_nonneg
  obtain ⟨ham, ha, hlo, hhi⟩ := f32Within_iff.1 h.within
  rw [F32.key_zero] at hdA0
  have hge := F32.key_le_key_add h.finite hdA hdA0
  obtain ⟨hn, hk⟩ := F32.fmin_spec ham (F32.isNan_add h.finite hdA)
  exact f32Within_iff.2 ⟨ham, hn, by omega, by omega⟩

/-- The third candidate of R159: one jerk step down, at least −AM. -/
theorem AccelStep.down (h : AccelStep am dA a) : F32Within am (F32.fmax (F32.neg am) (F32.sub a dA)) := by
  obtain ⟨-, hdA, hdA0⟩ := F32.le_iff.1 h.dA_nonneg
  obtain ⟨ham, ha, hlo, hhi⟩ := f32Within_iff.1 h.within
  rw [F32.key_zero] at hdA0
  have hdA' : (F32.neg dA).isNan = false := by rwa [F32.isNan_neg]
  have hle : (F32.sub a dA).key ≤ a.key :=
    F32.key_add_le_key h.finite hdA' (by rw [F32.key_neg]; omega)
  obtain ⟨hn, hk⟩ := F32.fmax_spec (x := F32.neg am) (y := F32.sub a dA) (by rwa [F32.isNan_neg])
    (F32.isNan_add h.finite hdA')
  rw [F32.key_neg] at hk
  exact f32Within_iff.2 ⟨ham, hn, by omega, by omega⟩

end

/-- The choice of R159 in one direction: the first of the three candidates that can still stop, else the last. -/
def pickAccel (am dA dt vs as ts : F32) : F32 :=
  ([F32.fmin am (F32.add as dA), as, F32.fmax (F32.neg am) (F32.sub as dA)].find?
    (stopsInTime dA dt vs ts)).getD (F32.fmax (F32.neg am) (F32.sub as dA))

/-- The acceleration chosen for a target is the choice in the direction of the error (R159). -/
theorem steeredAccel_eq (m : Motion) (dA vt e : F32) :
    steeredAccel m dA vt e = signed (F32.lt F32.zero e)
      (pickAccel m.am dA m.dt (signed (F32.lt F32.zero e) m.v) (signed (F32.lt F32.zero e) m.a)
        (signed (F32.lt F32.zero e) vt)) := rfl

/-- Which candidate is chosen (R159). -/
theorem pickAccel_spec (am dA dt vs as ts : F32) :
    (stopsInTime dA dt vs ts (F32.fmin am (F32.add as dA)) = true →
      pickAccel am dA dt vs as ts = F32.fmin am (F32.add as dA)) ∧
    (¬ stopsInTime dA dt vs ts (F32.fmin am (F32.add as dA)) = true → stopsInTime dA dt vs ts as = true →
      pickAccel am dA dt vs as ts = as) ∧
    (¬ stopsInTime dA dt vs ts (F32.fmin am (F32.add as dA)) = true → ¬ stopsInTime dA dt vs ts as = true →
      pickAccel am dA dt vs as ts = F32.fmax (F32.neg am) (F32.sub as dA)) := by
  unfold pickAccel
  generalize F32.fmin am (F32.add as dA) = c1, F32.fmax (F32.neg am) (F32.sub as dA) = c3,
    stopsInTime dA dt vs ts = p
  refine ⟨fun h1 => ?_, fun h1 h2 => ?_, fun h1 h2 => ?_⟩
  · rw [List.find?_cons_of_pos h1]; rfl
  · rw [List.find?_cons_of_neg h1, List.find?_cons_of_pos h2]; rfl
  · rw [List.find?_cons_of_neg h1, List.find?_cons_of_neg h2, List.find?_singleton]
    split <;> rfl

/-- Whichever candidate is chosen, it is within AM (R159). -/
theorem AccelStep.pick {am dA as : F32} (h : AccelStep am dA as) (dt vs ts : F32) :
    F32Within am (pickAccel am dA dt vs as ts) := by
  obtain ⟨hfirst, hsecond, hthird⟩ := pickAccel_spec am dA dt vs as ts
  by_cases h1 : stopsInTime dA dt vs ts (F32.fmin am (F32.add as dA)) = true
  · rw [hfirst h1]; exact h.up
  by_cases h2 : stopsInTime dA dt vs ts as = true
  · rw [hsecond h1 h2]; exact h.within
  · rw [hthird h1 h2]; exact h.down

/-- The acceleration of U4 is within AM (R157, R159). -/
theorem nextAccel_within {m : Motion} {dA : F32} (h : AccelStep m.am dA m.a) (vt e : F32) :
    F32Within m.am (nextAccel m dA vt e) := by
  unfold nextAccel
  split
  · exact h.decayed
  · rw [steeredAccel_eq]
    exact ((h.signed _).pick _ _ _).signed _

/-! ### UPDATE, field by field (R155 to R162) -/

section
variable (m : Motion) (vreq : F32)

/-- The distance `e` of the velocity from its target (U2). -/
def Motion.velocityError : F32 := F32.sub (targetVelocity m vreq) m.v

/-- The acceleration of U4. -/
def Motion.steppedAccel : F32 := nextAccel m (jerkStep m) (targetVelocity m vreq) (m.velocityError vreq)

/-- The velocity that U5 reaches. -/
def Motion.reachedVelocity : F32 := F32.add m.v (F32.mul (m.steppedAccel vreq) m.dt)

/-- The test of U6. -/
def Motion.snaps : Bool :=
  snapsToTarget (targetVelocity m vreq) (m.velocityError vreq) (m.reachedVelocity vreq)
    (F32.mul (jerkStep m) m.dt)

/-- The acceleration after U6. -/
def Motion.snappedAccel : F32 :=
  if m.snaps vreq && F32.le (F32.abs m.a) (jerkStep m) then F32.zero else m.steppedAccel vreq

/-- The velocity after U6. -/
def Motion.snappedVelocity : F32 := if m.snaps vreq then targetVelocity m vreq else m.reachedVelocity vreq

/-- The velocity after U7. -/
def Motion.limitedVelocity : F32 := limitTo m.vm (m.snappedVelocity vreq)

/-- UPDATE by its steps. -/
theorem Motion.update_eq : m.update vreq = { m with
    vt := F32.canon (targetVelocity m vreq)
    a := F32.canon (m.snappedAccel vreq)
    v := F32.canon (m.limitedVelocity vreq)
    j := F32.canon (limitTo m.jm (F32.div (F32.sub (m.snappedAccel vreq) m.a) m.dt))
    pos := F32.canon (F32.add m.pos (F32.mul (m.limitedVelocity vreq) m.dt)) } := rfl

end

/-- The condition of U6, as a proposition (R160). -/
theorem snapsToTarget_iff (vt e vr dV : F32) :
    snapsToTarget vt e vr dV = true ↔ (F32.le F32.zero e = true ∧ F32.le vt vr = true) ∨
      (F32.le e F32.zero = true ∧ F32.le vr vt = true) ∨ F32.le (F32.abs (F32.sub vt vr)) dV = true := by
  simp only [snapsToTarget, Bool.or_eq_true, Bool.and_eq_true, or_assoc]

/-- The clamped target is no NaN, whatever is requested (R156). -/
theorem isNan_targetVelocity {m : Motion} (h : m.vm.isNan = false) (vreq : F32) :
    (targetVelocity m vreq).isNan = false := F32.isNan_fmin h

/-! ### UPDATE keeps the bounds of R167 -/

section
variable {m : Motion} (h : m.Bounded) (vreq : F32)
include h

/-- In a bounded profile `dA` is ≥ 0 (U3). -/
theorem Motion.Bounded.jerkStep_nonneg : F32.le F32.zero (jerkStep m) = true := by
  obtain ⟨hjm, hjm0⟩ := h.jm_ok
  obtain ⟨hdt, hdt0⟩ := F32.positive_iff.1 h.dt_ok
  exact F32.le_iff.2 ⟨rfl, F32.isNan_mul_of_isFinite hjm hdt,
    F32.key_mul_nonneg hjm hdt (F32.le_iff.1 hjm0).2.2 hdt0.le⟩

/-- The acceleration of U4 is within AM. -/
theorem Motion.Bounded.steppedAccel_within : F32Within m.am (m.steppedAccel vreq) :=
  nextAccel_within ⟨h.am_ok.2, h.jerkStep_nonneg, h.a_le.isFinite h.am_ok.1, h.a_le⟩ _ _

/-- The acceleration after U6 is within AM (R161). -/
theorem Motion.Bounded.snappedAccel_within : F32Within m.am (m.snappedAccel vreq) := by
  unfold Motion.snappedAccel
  split
  · exact .zero h.am_ok.2
  · exact h.steppedAccel_within vreq

/-- The velocity of U5 is a number or an infinity. -/
theorem Motion.Bounded.isNan_reachedVelocity : (m.reachedVelocity vreq).isNan = false := by
  obtain ⟨hdt, hdt0⟩ := F32.positive_iff.1 h.dt_ok
  exact F32.isNan_add (h.v_le.isFinite h.vm_ok.1)
    (F32.isNan_mul (h.steppedAccel_within vreq).isNan hdt hdt0.ne')

/-- The velocity after U7 is within VM (R160). -/
theorem Motion.Bounded.limitedVelocity_within : F32Within m.vm (m.limitedVelocity vreq) := by
  refine .limitTo h.vm_ok.2 ?_
  unfold Motion.snappedVelocity
  split
  · exact isNan_targetVelocity (F32.isNan_of_isFinite h.vm_ok.1) vreq
  · exact h.isNan_reachedVelocity vreq

/-- The jerk that UPDATE records is within JM (R161). -/
theorem Motion.Bounded.jerk_within :
    F32Within m.jm (limitTo m.jm (F32.div (F32.sub (m.snappedAccel vreq) m.a) m.dt)) := by
  obtain ⟨hdt, hdt0⟩ := F32.positive_iff.1 h.dt_ok
  have hsub : (F32.sub (m.snappedAccel vreq) m.a).isNan = false :=
    F32.isNan_add ((h.snappedAccel_within vreq).isFinite h.am_ok.1) (by rw [F32.isNan_neg]; exact h.a_le.isNan)
  exact .limitTo h.jm_ok.2 (F32.isNan_div hsub hdt hdt0.ne')

/-- UPDATE keeps the bounds of R167. -/
theorem Motion.Bounded.update : (m.update vreq).Bounded := by
  rw [Motion.update_eq]
  exact ⟨h.vm_ok, h.am_ok, h.jm_ok, h.dt_ok, (h.limitedVelocity_within vreq).canon,
    (h.snappedAccel_within vreq).canon, (h.jerk_within vreq).canon⟩

/-- RETARGET keeps the bounds of R167: the position is not bounded (R154). -/
theorem Motion.Bounded.withPos (pos : F32) : ({ m with pos := pos } : Motion).Bounded :=
  ⟨h.vm_ok, h.am_ok, h.jm_ok, h.dt_ok, h.v_le, h.a_le, h.j_le⟩

end

end Sys2Proof.Machine

namespace Sys2Proof

/-! ### RAMP_INIT meets the bounds of R167 (R151) -/

/-- What a well-formed configuration gives the profile (R8): the tick period and the scales. -/
structure Cfg.ProfileOk (c : Cfg) : Prop where
  dt : c.dt.positive = true
  kv : c.kv.positive = true
  ka : c.ka.positive = true
  kj : c.kj.positive = true
  vm : (F32.mul (F32.ofNat 255) c.kv).isFinite = true
  am : (F32.mul (F32.ofNat 255) c.ka).isFinite = true
  jm : (F32.mul (F32.ofNat 255) c.kj).isFinite = true

/-- A well-formed configuration has them (R8). -/
theorem Cfg.profileOk_of_wf {c : Cfg} (h : c.WF = true) : c.ProfileOk := by
  simp only [Cfg.WF, Cfg.valuesOk, Bool.and_eq_true, and_assoc] at h
  obtain ⟨-, hdt, hkv, hka, hkj, -, -, -, -, -, -, -, -, -, -, hvm, ham, hjm⟩ := h
  exact ⟨hdt, hkv, hka, hkj, hvm, ham, hjm⟩

/-- A scaled limit byte is finite and ≥ 0 where the scaled 255 is finite (R8, R151). -/
theorem F32.scaledByte_ok {k : F32} (hk : k.positive = true)
    (hmax : (F32.mul (F32.ofNat 255) k).isFinite = true) (b : Byte) :
    (F32.canon (F32.mul (F32.ofNat b.toNat) k)).isFinite = true ∧
      F32.le F32.zero (F32.canon (F32.mul (F32.ofNat b.toNat) k)) = true := by
  obtain ⟨hfin, hpos⟩ := F32.positive_iff.1 hk
  have hle : (F32.ofNat b.toNat).key ≤ (F32.ofNat 255).key := F32.key_ofNat_mono (by omega)
  obtain ⟨hmul, hmul0⟩ :=
    F32.mul_of_le (F32.isNan_ofNat _) (F32.key_ofNat_nonneg _) hle hfin hpos.le hmax
  refine ⟨F32.isFinite_canon hmul, F32.le_iff.2 ⟨rfl, ?_, ?_⟩⟩
  · rw [F32.isNan_canon]
    exact F32.isNan_of_isFinite hmul
  · rwa [F32.key_zero, F32.key_canon]

end Sys2Proof

namespace Sys2Proof.Machine

/-- RAMP_INIT meets the bounds of R167 under a well-formed configuration (R151). -/
theorem Motion.rampStart_bounded {c : Cfg} (h : c.WF = true) (k : Axis) (v : MotorView) :
    (Motion.rampStart c k v).Bounded := by
  have hc := Cfg.profileOk_of_wf h
  have hvm := F32.scaledByte_ok hc.kv hc.vm v.vmax
  have ham := F32.scaledByte_ok hc.ka hc.am v.amax
  have hjm := F32.scaledByte_ok hc.kj hc.jm v.jmax
  exact ⟨hvm, ham, hjm, hc.dt, .zero hvm.2, .zero ham.2, .zero hjm.2⟩

/-! ### The bounds of R167 through an M_STEP -/

/-- The bounds of R167 on one axis: they hold of its profile in RAMP_ACTIVE. -/
def AxisState.MotionBounded (a : AxisState) : Prop := a.s.mst = .rampActive → a.m.Bounded

/-- An axis in another state is bounded. -/
theorem AxisState.MotionBounded.of_ne {a : AxisState} (h : a.s.mst ≠ .rampActive) : a.MotionBounded :=
  fun hr => absurd hr h

/-- The bounds speak of the state and the profile only. -/
theorem AxisState.MotionBounded.congr {a b : AxisState} (h : a.MotionBounded) (hs : b.s.mst = a.s.mst)
    (hm : b.m = a.m) : b.MotionBounded := fun hr => hm ▸ h (hs ▸ hr)

/-- P1 to P4 keep the bounds: they leave the profile alone, start it, or leave RAMP_ACTIVE (R183 to R185). -/
theorem Env.front_motionBounded {e : Env} (hwf : e.cfg.WF = true) (h : e.ax.MotionBounded) :
    e.front.ax.MotionBounded := by
  rcases e.front_cases with ⟨-, -, -, hm, -⟩ | ⟨-, -, -, hm, -, -, -, hp⟩ | ⟨-, -, hr, hm, -⟩ |
    ⟨-, -, -, -, -, -, -, -, -, hp⟩ | ⟨-, -, -, -, hm, -⟩
  · exact .of_ne (by rw [hm]; exact nofun)
  · exact h.congr hm hp
  · exact .of_ne (by rw [hm]; exact hr)
  · exact fun _ => hp ▸ Motion.rampStart_bounded hwf _ _
  · exact .of_ne (by rw [hm]; exact nofun)

/-- The retarget test of P5 keeps the bounds (R187). -/
theorem Env.retargetIfMaterial_bounded {e : Env} (h : e.ax.m.Bounded) : e.retargetIfMaterial.ax.m.Bounded := by
  unfold Env.retargetIfMaterial
  split
  · exact h.withPos .zero
  · exact h

/-- The profile that HANDLE_RAMP leaves. -/
@[simp] theorem Env.rampResult_m (e : Env) (vreq : F32) (m : Motion) (done : Bool) (speed : Byte) :
    (e.rampResult vreq m done speed).ax.m = m := rfl

/-- The handlers keep the bounds: in RAMP_ACTIVE the profile is updated (R186, R187, R188). -/
theorem Env.handle_motionBounded {e : Env} (h : e.ax.MotionBounded) : e.handle.ax.MotionBounded := by
  intro hr
  rw [e.handle_mode.mst] at hr
  rw [Env.handle_ramp hr, Env.handleRamp_eq, Env.rampResult_m]
  exact (Env.retargetIfMaterial_bounded (h hr)).update _

/-- The end of an M_STEP leaves the state and the profile of the fault monitor. -/
theorem Env.finish_motionBounded (e : Env) (duty : BitVec 7) (code : FaultCode) {mst : Mst} (err : Byte)
    (cnt : BitVec 32) (done : Bool) {m : Motion} (h : mst = .rampActive → m.Bounded) :
    (e.finish duty code mst err cnt done m).ax.MotionBounded := h

/-- The phases after the handler keep the bounds: a latched fault leaves RAMP_ACTIVE (R189 to R193, R214). -/
theorem Env.tail_motionBounded {e : Env} (h : e.ax.MotionBounded) : e.tail.ax.MotionBounded := by
  cases ha : e.ax.s.mst.active with
  | false => rw [Env.tail_inactive ha]; exact e.finish_motionBounded _ _ _ _ _ h
  | true =>
    cases hf : detectedFault e.ax.oc e.loc.rangeBad
      (countStall e.ax.s.stallCnt e.loc.speed e.loc.cmdEff) e.cfg.stallTicks with
    | none => rw [Env.tail_active ha hf]; exact e.finish_motionBounded _ _ _ _ _ h
    | some c => rw [Env.tail_fault ha hf]; exact e.finish_motionBounded _ _ _ _ _ nofun

/-- An M_STEP keeps the bounds of its axis. -/
theorem Env.mStep_motionBounded {e : Env} (hwf : e.cfg.WF = true) (h : e.ax.MotionBounded) :
    e.mStep.ax.MotionBounded := by
  rw [Env.mStep_eq]
  exact Env.tail_motionBounded (Env.handle_motionBounded (Env.front_motionBounded hwf h))

/-! ### The bounds of R167 through a step of the block -/

/-- Both axes of a bounded block are bounded. -/
theorem State.MotionBounded.ax {s : State} (h : s.MotionBounded) (k : Axis) : (s.ax k).MotionBounded := by
  cases k
  · exact h.one_ok
  · exact h.two_ok

/-- The bounds of a state with the same configuration and schedule as a bounded one. -/
theorem State.MotionBounded.of_axes {s t : State} (h : s.MotionBounded) (hcfg : t.cfg = s.cfg)
    (hsched : t.sched = s.sched) (hax : ∀ k, (t.ax k).MotionBounded) : t.MotionBounded where
  cfg_wf := hcfg ▸ h.cfg_wf
  no_probe := hsched ▸ h.no_probe
  one_ok := hax .one
  two_ok := hax .two

/-- The bounds of a state with the same configuration, schedule and axes as a bounded one. -/
theorem State.MotionBounded.sameAxes {s t : State} (h : s.MotionBounded) (hcfg : t.cfg = s.cfg)
    (hsched : t.sched = s.sched) (h1 : t.ax1 = s.ax1) (h2 : t.ax2 = s.ax2) : t.MotionBounded :=
  ⟨hcfg ▸ h.cfg_wf, hsched ▸ h.no_probe, h1 ▸ h.one_ok, h2 ▸ h.two_ok⟩

/-- SET_OC keeps the bounds (R123). -/
theorem State.MotionBounded.setOvercurrent {s : State} (h : s.MotionBounded) (k : Axis) (l : Bool) :
    (s.setOvercurrent k l).MotionBounded := by
  refine h.of_axes (s.setOvercurrent_cfg k l) (s.setOvercurrent_sched k l) fun j => ?_
  by_cases hj : j = k
  · subst hj
    rw [State.setOvercurrent, State.ax_setAx]
    exact (h.ax j).congr rfl rfl
  · rw [State.setOvercurrent, State.ax_setAx_of_ne _ _ hj]
    exact h.ax j

/-- RESET leaves no axis in RAMP_ACTIVE (R240). -/
theorem State.MotionBounded.doReset {s : State} (h : s.MotionBounded) : s.doReset.MotionBounded :=
  h.of_axes s.doReset_cfg s.doReset_sched fun k => by
    cases k
    · rw [State.ax_one, State.doReset_ax1]; exact .of_ne nofun
    · rw [State.ax_two, State.doReset_ax2]; exact .of_ne nofun

/-- M_STEP keeps the bounds: its axis by `Env.mStep_motionBounded`, the other by the frame. -/
theorem State.MotionBounded.mStep {s : State} (h : s.MotionBounded) (k : Axis) : (s.mStep k).MotionBounded := by
  refine h.of_axes (s.mStep_cfg k) (s.mStep_sched k) fun j => ?_
  by_cases hj : j = k
  · subst hj
    rw [State.mStep_ax]
    exact Env.mStep_motionBounded (e := s.stepEnv j) h.cfg_wf (h.ax j)
  · rw [State.mStep_ax_of_ne s hj]
    exact h.ax j

/-- Every operation other than a sub-operation keeps the bounds. -/
theorem State.MotionBounded.effect {s t : State} (h : s.MotionBounded) (e : s.Effect t) : t.MotionBounded := by
  cases e with
  | views e => exact h.sameAxes e.cfg e.sched e.ax1 e.ax2
  | store a v => exact h.sameAxes rfl rfl rfl rfl
  | setOc k l => exact h.setOvercurrent k l
  | tick => exact h.sameAxes s.tick_cfg s.tick_sched s.tick_ax1 s.tick_ax2
  | reset => exact h.doReset
  | mStep k => exact h.mStep k
  | tickEnd => exact h.sameAxes rfl rfl rfl rfl

/-- A bounded state schedules no sub-operation alone. -/
theorem State.MotionBounded.not_subop {s : State} (h : s.MotionBounded) {w : Word32} {rest : List Event} :
    s.sched ≠ .subop w :: rest := fun hs => by
  have hprobe := h.no_probe (.subop w) (by rw [hs]; exact List.mem_cons_self)
  cases hprobe

/-- The schedule of a bounded state may advance. -/
theorem State.MotionBounded.advance {s : State} (h : s.MotionBounded) {ev : Event} {rest : List Event}
    (hs : s.sched = ev :: rest) : ({ s with sched := rest } : State).MotionBounded :=
  { h with no_probe := fun e he => h.no_probe e (by rw [hs]; exact List.mem_cons_of_mem ev he) }

/-- Settles O59: each piece of a step keeps the bounds, M_STEP through `Motion.Bounded.update`. -/
theorem stepKeepsTheMotionBounds : Obligations.StepKeepsTheMotionBounds := fun _ _ hs h =>
  step_keeps (P := State.MotionBounded)
    (hquiet := fun _ hu => hu.of_axes rfl rfl fun k => by
      cases k
      · exact (hu.ax .one).congr rfl rfl
      · exact (hu.ax .two).congr rfl rfl)
    (hrest := fun _ _ _ he hu => hu.advance he)
    (hoc := fun _ k l hu => hu.setOvercurrent k l)
    (hexec := fun _ _ _ hf hu hx => hu.effect (exec_effect hf hx))
    (hsubop := fun _ _ _ _ _ _ he hu _ _ => absurd he hu.not_subop)
    (huop := fun _ _ _ hf hu hx => (hu.effect (exec_uop_effect hf hx)).sameAxes rfl rfl rfl rfl)
    (hformat := fun _ _ _ => format_of_decode)
    (hheld := fun u hu => hu.sameAxes u.startHeld_cfg u.startHeld_sched u.startHeld_ax1 u.startHeld_ax2) hs h

end Sys2Proof.Machine

namespace Sys2Proof.Machine

/-! ### The sub-operations of the profile on the state (R151, R153, R154, R155) -/

/-- A sub-operation that writes the axis and the locals only (log entry 2). -/
theorem State.onLocals_of_ax_loc {s : State} {f : Env → Env} {a : AxisState} {l : Locals}
    (h : f (s.env s.loc.axis) = { s.env s.loc.axis with ax := a, loc := l }) :
    s.onLocals f = { s.setAx s.loc.axis a with loc := l } := by
  rw [State.onLocals, h, State.putEnv]
  cases s.loc.axis <;> rfl

/-- A sub-operation that writes the axis only. -/
theorem State.onLocals_of_ax {s : State} {f : Env → Env} {a : AxisState}
    (h : f (s.env s.loc.axis) = { s.env s.loc.axis with ax := a }) : s.onLocals f = s.setAx s.loc.axis a := by
  rw [State.onLocals_of_ax_loc (l := s.loc) h]
  cases s.loc.axis <;> rfl

/-- The axis after a write of an axis and the locals. -/
@[simp] theorem State.setAx_loc_ax (s : State) (k : Axis) (a : AxisState) (l : Locals) :
    ({ s.setAx k a with loc := l } : State).ax k = a := by
  cases k <;> rfl

/-- RAMP_INIT on the state (R151). -/
theorem exec_rampInit (s : State) :
    exec .rampInit s = .next { s.setAx s.loc.axis { s.ax s.loc.axis with
      m := Motion.rampStart s.cfg s.loc.axis s.mv, s.done := false } with
      loc := { s.loc with ok := limitsOk s.mv } } :=
  congrArg Host.Outcome.next (State.onLocals_of_ax_loc rfl)

/-- MS_RESET on the state (R153). -/
theorem exec_msReset (s : State) :
    exec .msReset s = .next (s.setAx s.loc.axis { s.ax s.loc.axis with
      m := Motion.atRest (s.cfg.distance s.loc.axis), s.done := false }) :=
  congrArg Host.Outcome.next (State.onLocals_of_ax rfl)

/-- RETARGET on the state (R154). -/
theorem exec_retarget (s : State) :
    exec .retarget s = .next (s.setAx s.loc.axis { s.ax s.loc.axis with m.pos := .zero }) :=
  congrArg Host.Outcome.next (State.onLocals_of_ax rfl)

/-- UPDATE on the view of an axis, given the profile it answers (R155). -/
theorem Env.update_of_eq {e : Env} {m : Motion} (h : e.ax.m.update e.loc.vreq = m) :
    e.update = { e with ax := { e.ax with m := m }, loc := { e.loc with updDone := m.arrived e.cfg } } := by
  rw [Env.update, h]

/-- UPDATE on the state (R155). -/
theorem exec_update (s : State) {m : Motion} (h : (s.ax s.loc.axis).m.update s.loc.vreq = m) :
    exec .update s = .next { s.setAx s.loc.axis { s.ax s.loc.axis with m := m } with
      loc := { s.loc with updDone := m.arrived s.cfg } } :=
  congrArg Host.Outcome.next (State.onLocals_of_ax_loc (Env.update_of_eq h))

/-- Settles O39: the next state of `exec_rampInit`, field by field. -/
theorem rampInitLatchesTheLimits : Obligations.RampInitLatchesTheLimits := by
  intro s
  refine .of_eq (exec_rampInit s) ?_
  dsimp only
  rw [State.setAx_loc_ax]
  rw [State.setAx_loc]
  exact ⟨rfl, rfl, rfl, rfl, rfl, rfl, rfl, rfl, rfl, rfl, rfl, limitsOk_iff s.mv, rfl⟩

/-- Settles O40, by the next states of the two operations. -/
theorem profileResets : Obligations.ProfileResets := fun s => ⟨exec_msReset s, exec_retarget s⟩

/-- The done test of R164. -/
theorem Motion.arrived_iff (c : Cfg) (m : Motion) :
    m.arrived c = true ↔ F32.le (F32.abs (F32.sub m.vt m.v)) c.epsV = true ∧
      (m.dist = .inf false ∨ F32.le m.dist (F32.abs m.pos) = true) := by
  simp only [Motion.arrived, Bool.and_eq_true, Bool.or_eq_true, decide_eq_true_eq]

/-- UPDATE keeps the Distance, the tick period and the limits (R155). -/
theorem Motion.update_frame (m : Motion) (vreq : F32) :
    m.update vreq = { m with
      vt := (m.update vreq).vt, v := (m.update vreq).v, a := (m.update vreq).a, j := (m.update vreq).j
      pos := (m.update vreq).pos } := by
  rw [Motion.update_eq]

/-- Settles O41: the next state of `exec_update` for the profile that UPDATE computes. -/
theorem updateCompletesWithItsFrame : Obligations.UpdateCompletesWithItsFrame := by
  intro s
  have hframe := (s.ax s.loc.axis).m.update_frame s.loc.vreq
  generalize hm : (s.ax s.loc.axis).m.update s.loc.vreq = m at hframe
  refine .of_eq (exec_update s hm) ?_
  dsimp only
  rw [State.setAx_loc_ax, State.setAx_loc]
  exact ⟨m.arrived_iff s.cfg, hframe, rfl⟩

/-- Settles O43, by evaluating UPDATE on the example. -/
theorem updateFirstTickExample : Obligations.UpdateFirstTickExample := by
  unfold Obligations.UpdateFirstTickExample
  decide

end Sys2Proof.Machine

namespace Sys2Proof.Machine

/-! ### The steps of UPDATE, spelt out (R156 to R162) -/

/-- An acceleration within one jerk step of 0 becomes 0 on target (R157). -/
theorem decayedAccel_small {dA a : F32} (h : F32.le (F32.abs a) dA = true) : decayedAccel dA a = .zero := if_pos h

/-- A positive acceleration beyond one jerk step goes down by it (R157). -/
theorem decayedAccel_pos {dA a : F32} (h : F32.le (F32.abs a) dA = false) (hpos : F32.lt F32.zero a = true) :
    decayedAccel dA a = F32.sub a dA := by
  rw [decayedAccel, if_neg (Bool.eq_false_iff.1 h), if_pos hpos]

/-- Another acceleration beyond one jerk step goes up by it (R157). -/
theorem decayedAccel_neg {dA a : F32} (h : F32.le (F32.abs a) dA = false) (hpos : F32.lt F32.zero a = false) :
    decayedAccel dA a = F32.add a dA := by
  rw [decayedAccel, if_neg (Bool.eq_false_iff.1 h), if_neg (Bool.eq_false_iff.1 hpos)]

section
variable (m : Motion) (vreq : F32)

/-- On target U4 lets the acceleration decay (R157). -/
theorem Motion.steppedAccel_onTarget (h : F32.feq (m.velocityError vreq) F32.zero = true) :
    m.steppedAccel vreq = decayedAccel (jerkStep m) m.a := if_pos h

/-- Below the target U4 chooses among the candidates as they are (R159). -/
theorem Motion.steppedAccel_rise (h : F32.feq (m.velocityError vreq) F32.zero = false)
    (hup : F32.lt F32.zero (m.velocityError vreq) = true) :
    m.steppedAccel vreq = pickAccel m.am (jerkStep m) m.dt m.v m.a (targetVelocity m vreq) := by
  rw [steppedAccel, nextAccel, if_neg (Bool.eq_false_iff.1 h), steeredAccel_eq, hup]
  rfl

/-- Above the target U4 chooses among the mirrored candidates (R159). -/
theorem Motion.steppedAccel_fall (h : F32.feq (m.velocityError vreq) F32.zero = false)
    (hup : F32.lt F32.zero (m.velocityError vreq) = false) :
    m.steppedAccel vreq = F32.neg (pickAccel m.am (jerkStep m) m.dt (F32.neg m.v) (F32.neg m.a)
      (F32.neg (targetVelocity m vreq))) := by
  rw [steppedAccel, nextAccel, if_neg (Bool.eq_false_iff.1 h), steeredAccel_eq, hup]
  rfl

/-- The test of U6, spelt out (R160). -/
theorem Motion.snaps_iff :
    m.snaps vreq = true ↔
      (F32.le F32.zero (m.velocityError vreq) = true ∧
        F32.le (targetVelocity m vreq) (m.reachedVelocity vreq) = true) ∨
      (F32.le (m.velocityError vreq) F32.zero = true ∧
        F32.le (m.reachedVelocity vreq) (targetVelocity m vreq) = true) ∨
      F32.le (F32.abs (F32.sub (targetVelocity m vreq) (m.reachedVelocity vreq)))
        (F32.mul (jerkStep m) m.dt) = true := snapsToTarget_iff _ _ _ _

end

/-- Settles O42: the acceleration by the cases of U4, the snap by U6, and the rest by `Motion.update_eq`. -/
theorem updateFollowsItsSteps : Obligations.UpdateFollowsItsSteps := by
  intro s
  refine .of_eq (exec_update s rfl) ?_
  simp only [State.setAx_loc_ax]
  generalize (s.ax s.loc.axis).m = m, s.loc.vreq = vreq
  refine ⟨m.steppedAccel vreq, m.snappedAccel vreq, m.snappedVelocity vreq, fun he hle => ?_, fun he hle hpos => ?_,
    fun he hle hpos => ?_, fun he hup => ?_, fun he hup => ?_, ⟨fun hs => ?_, fun hs => ?_, fun hs hle => ?_,
    fun hs => ?_⟩, m.update_eq vreq⟩
  · exact (m.steppedAccel_onTarget vreq he).trans (decayedAccel_small hle)
  · exact (m.steppedAccel_onTarget vreq he).trans (decayedAccel_pos hle hpos)
  · exact (m.steppedAccel_onTarget vreq he).trans (decayedAccel_neg hle hpos)
  · rw [m.steppedAccel_rise vreq he hup]
    exact pickAccel_spec _ _ _ _ _ _
  · exact ⟨_, pickAccel_spec _ _ _ _ _ _, m.steppedAccel_fall vreq he hup⟩
  · exact if_pos ((m.snaps_iff vreq).2 hs)
  · exact if_neg fun h => hs ((m.snaps_iff vreq).1 h)
  · exact if_pos (by rw [(m.snaps_iff vreq).2 hs]; exact hle)
  · refine if_neg fun h => hs ?_
    rw [Bool.and_eq_true] at h
    exact ⟨(m.snaps_iff vreq).1 h.1, h.2⟩

/-! ### UPDATE on target (R157, R160) -/

/-- What U4 lets an acceleration decay to: a number or an infinity, and finite where `dA` is a zero (R157). -/
theorem decayedAccel_num {dA a : F32} (ha : a.isFinite = true) (hdA : dA.isNan = false) :
    (decayedAccel dA a).isNan = false ∧ (dA.key = 0 → (decayedAccel dA a).isFinite = true) := by
  have hdA' : (F32.neg dA).isNan = false := by rwa [F32.isNan_neg]
  unfold decayedAccel
  split
  · exact ⟨rfl, fun _ => rfl⟩
  split
  · exact ⟨F32.isNan_add ha hdA', fun h => F32.isFinite_add_zero ha hdA' (by rw [F32.key_neg, h]; rfl)⟩
  · exact ⟨F32.isNan_add ha hdA, F32.isFinite_add_zero ha hdA⟩

section
variable {m : Motion} {vreq : F32}

/-- On target U5 reaches no NaN: only where `dt` is a zero could the product be one, and there the acceleration
stays finite. -/
theorem Motion.isNan_reachedVelocity_onTarget (hv : m.v.isFinite = true) (ha : m.a.isFinite = true)
    (hdt : m.dt.isFinite = true) (hjm : m.jm.isFinite = true)
    (he : F32.feq (m.velocityError vreq) F32.zero = true) : (m.reachedVelocity vreq).isNan = false := by
  obtain ⟨hnum, hfin⟩ := decayedAccel_num ha (F32.isNan_mul_of_isFinite hjm hdt)
  refine F32.isNan_add hv ?_
  rw [m.steppedAccel_onTarget vreq he]
  by_cases h0 : m.dt.key = 0
  · exact F32.isNan_mul_of_isFinite (hfin (F32.key_mul_zero hjm hdt h0)) hdt
  · exact F32.isNan_mul hnum hdt h0

/-- On target U6 snaps: of two numbers one is at most the other (R160). -/
theorem Motion.snaps_onTarget (he : F32.feq (m.velocityError vreq) F32.zero = true)
    (hvt : (targetVelocity m vreq).isNan = false) (hvr : (m.reachedVelocity vreq).isNan = false) :
    m.snaps vreq = true := by
  obtain ⟨hen, -, he0⟩ := F32.feq_iff.1 he
  rw [Motion.snaps_iff]
  rcases Int.le_total (targetVelocity m vreq).key (m.reachedVelocity vreq).key with hle | hle
  · exact .inl ⟨F32.le_iff.2 ⟨rfl, hen, he0.ge⟩, F32.le_iff.2 ⟨hvt, hvr, hle⟩⟩
  · exact .inr (.inl ⟨F32.le_iff.2 ⟨hen, rfl, he0.le⟩, F32.le_iff.2 ⟨hvr, hvt, hle⟩⟩)

/-- A velocity within ±VM is not moved by the limit of U7 (R160). -/
theorem feq_limitTo {b x v : F32} (hv : F32Within b v) (hx : F32.feq x v = true) :
    F32.feq (limitTo b x) v = true := by
  obtain ⟨hb, hvn, hlo, hhi⟩ := f32Within_iff.1 hv
  obtain ⟨hxn, -, hkey⟩ := F32.feq_iff.1 hx
  obtain ⟨hn, hk⟩ := limitTo_spec hb hxn
  exact F32.feq_iff.2 ⟨hn, hvn, by omega⟩

end

/-- Settles O44: the error is a zero, so U6 snaps to the target, which is the velocity. -/
theorem updateHoldsAVelocityOnTarget : Obligations.UpdateHoldsAVelocityOnTarget := by
  intro m vreq hv ha hdt hjm hwithin hvt
  obtain ⟨hvtn, -, hkey⟩ := F32.feq_iff.1 hvt
  have hbounds := F32.key_lt_of_isFinite hv
  have hvtfin : (targetVelocity m vreq).isFinite = true := F32.isFinite_of_key hvtn (by omega) (by omega)
  have he : F32.feq (m.velocityError vreq) F32.zero = true := F32.feq_sub_zero hvtfin hv hkey
  have hsnap := Motion.snaps_onTarget he hvtn (Motion.isNan_reachedVelocity_onTarget hv ha hdt hjm he)
  have hvel : m.snappedVelocity vreq = targetVelocity m vreq := if_pos hsnap
  rw [Motion.update_eq]
  refine ⟨F32.feq_canon ?_, F32.feq_canon hvt, fun hle => ?_⟩
  · rw [Motion.limitedVelocity, hvel]
    exact feq_limitTo hwithin hvt
  · have hsmall : m.snappedAccel vreq = F32.zero := if_pos (by rw [hsnap]; exact hle)
    rw [hsmall]
    rfl

end Sys2Proof.Machine

/-! # Proofs of the family 43_mode_controller: the phases P1 to P9 as sub-operations, the rows of the transition
table -/

namespace Sys2Proof.Machine

/-! ### The phases on the state (R181 to R193)

A phase performed alone works on the axis and the locals that `loc` names (log entry 2). -/

/-- A sub-operation that writes the locals only (log entry 2). -/
theorem State.onLocals_of_loc {s : State} {f : Env → Env} {l : Locals}
    (h : f (s.env s.loc.axis) = { s.env s.loc.axis with loc := l }) : s.onLocals f = { s with loc := l } := by
  rw [State.onLocals_of_ax_loc (a := s.ax s.loc.axis) h, State.setAx_ax]

/-- A sub-operation that changes nothing. -/
theorem State.onLocals_of_same {s : State} {f : Env → Env} (h : f (s.env s.loc.axis) = s.env s.loc.axis) :
    s.onLocals f = s := State.onLocals_of_loc (l := s.loc) h

/-- A sub-operation that writes the axis and the output history only (log entry 2). -/
theorem State.onLocals_of_ax_calls {s : State} {f : Env → Env} {a : AxisState} {cs : List PwmCall}
    (h : f (s.env s.loc.axis) = { s.env s.loc.axis with ax := a, calls := cs }) :
    s.onLocals f = { s.setAx s.loc.axis a with calls := cs } := by
  rw [State.onLocals, h, State.putEnv]
  cases s.loc.axis <;> rfl

/-- A sub-operation that writes the axis and `MV` only (log entry 2). -/
theorem State.onLocals_of_ax_mv {s : State} {f : Env → Env} {a : AxisState} {v : MotorView}
    (h : f (s.env s.loc.axis) = { s.env s.loc.axis with ax := a, mv := v }) :
    s.onLocals f = { s.setAx s.loc.axis a with mv := v } := by
  rw [State.onLocals, h, State.putEnv]
  cases s.loc.axis <;> rfl

/-- The axis after a write of an axis and the output history. -/
@[simp] theorem State.setAx_calls_ax (s : State) (k : Axis) (a : AxisState) (cs : List PwmCall) :
    ({ s.setAx k a with calls := cs } : State).ax k = a := by
  cases k <;> rfl

/-- P1 on the state (R181). -/
theorem exec_p1DirSanitize (s : State) :
    exec .p1DirSanitize s = .next (s.setAx s.loc.axis { s.ax s.loc.axis with
      s.dirEff := (directionOf s.mv.dir).getD (s.ax s.loc.axis).s.dirEff }) :=
  congrArg Host.Outcome.next (State.onLocals_of_ax (Env.dirSanitize_eq _))

/-- P2 on the state (R182). -/
theorem exec_p2CmdClamp (s : State) :
    exec .p2CmdClamp s = .next { s with
      loc := { s.loc with cmdEff := effectiveCommand s.mv, rangeBad := rangeIsBad s.mv } } :=
  congrArg Host.Outcome.next (State.onLocals_of_loc rfl)

/-- P4 on the state, given what it leaves of the axis and the locals (R184). -/
theorem exec_p4ModeSelect {s : State} {a : AxisState} {l : Locals}
    (h : (s.env s.loc.axis).modeSelect = { s.env s.loc.axis with ax := a, loc := l }) :
    exec .p4ModeSelect s = .next { s.setAx s.loc.axis a with loc := l } :=
  congrArg Host.Outcome.next (State.onLocals_of_ax_loc h)

/-- P5 HANDLE_ONOFF on the state (R186). -/
theorem exec_p5HandleOnOff (s : State) :
    exec .p5HandleOnOff s = .next { s.setAx s.loc.axis { s.ax s.loc.axis with s.done := false } with
      loc := { s.loc with speed := s.loc.cmdEff } } :=
  congrArg Host.Outcome.next (State.onLocals_of_ax_loc rfl)

/-- P5 HANDLE_IDLE on the state (R188). -/
theorem exec_p5HandleIdle (s : State) :
    exec .p5HandleIdle s = .next { s.setAx s.loc.axis { s.ax s.loc.axis with s.done := false } with
      loc := { s.loc with speed := 0 } } :=
  congrArg Host.Outcome.next (State.onLocals_of_ax_loc rfl)

/-- P6 DUTY on the state (R189). -/
theorem exec_p6Duty (s : State) :
    exec .p6Duty s = .next { s with
      loc := { s.loc with duty := dutyOf (s.ax s.loc.axis).s.mst s.loc.speed s.mv.maxs } } :=
  congrArg Host.Outcome.next (State.onLocals_of_loc rfl)

/-- P6 ACTUATE on the state (R190). -/
theorem exec_p6Actuate (s : State) :
    exec .p6Actuate s = .next { s.setAx s.loc.axis { s.ax s.loc.axis with
        out := { (s.ax s.loc.axis).out with
          duty := s.loc.duty, dir := (s.ax s.loc.axis).s.dirEff, stb := true } } with
      calls := s.calls ++ [⟨s.loc.axis, s.loc.duty, (s.ax s.loc.axis).s.dirEff⟩] } :=
  congrArg Host.Outcome.next (State.onLocals_of_ax_calls rfl)

/-- P9 on the state (R193). -/
theorem exec_p9Writeback (s : State) :
    exec .p9Writeback s = .next { s.setAx s.loc.axis { s.ax s.loc.axis with
        out.done := (s.ax s.loc.axis).s.done } with
      mv := { s.mv with as := s.loc.speed, sw := s.loc.sw, ec := (s.ax s.loc.axis).s.err } } :=
  congrArg Host.Outcome.next (State.onLocals_of_ax_mv rfl)

/-- P8 on the state (R192). -/
theorem exec_p8Status (s : State) :
    exec .p8Status s = .next { s.setAx s.loc.axis { s.ax s.loc.axis with
        s.sw := statusWordOf (s.ax s.loc.axis).s.mst s.loc.speed s.loc.cmdEff } with
      loc := { s.loc with sw := statusWordOf (s.ax s.loc.axis).s.mst s.loc.speed s.loc.cmdEff } } :=
  congrArg Host.Outcome.next (State.onLocals_of_ax_loc rfl)

/-- Settles O29, by the value of `directionOf` in each clause. -/
theorem dirSanitizeKeepsLastValid : Obligations.DirSanitizeKeepsLastValid := by
  intro s
  refine .of_eq (exec_p1DirSanitize s) ?_
  rw [State.ax_setAx]
  refine ⟨fun h => ?_, fun h => ?_, fun h => ?_, fun h => ?_, rfl⟩
  · rw [h]; rfl
  · rw [h]; rfl
  · rw [h]; rfl
  · rw [directionOf_none h]; rfl

/-- Settles O30, by the laws of `cmd_eff` and of the range flag. -/
theorem cmdClampBoundsTheCommand : Obligations.CmdClampBoundsTheCommand := fun s =>
  .of_eq (exec_p2CmdClamp s) ⟨effectiveCommand_toNat s.mv, rangeIsBad_iff s.mv, rfl⟩

/-- Settles O31, by the two cases of P3. -/
theorem resetErrorClearsOnlyWhenDisabled : Obligations.ResetErrorClearsOnlyWhenDisabled := by
  refine fun s => ⟨?_, fun h => ?_⟩
  · rintro ⟨hm, hr, he⟩
    exact congrArg Host.Outcome.next (State.onLocals_of_ax (Env.resetError_clears hm hr he))
  · exact congrArg Host.Outcome.next (State.onLocals_of_same (Env.resetError_keeps h))

/-- Settles O33, by the next states of the two handlers. -/
theorem simpleHandlersSetTheSpeed : Obligations.SimpleHandlersSetTheSpeed := by
  intro s
  rw [exec_p5HandleOnOff, exec_p5HandleIdle]
  dsimp only
  rw [State.setAx_loc]
  exact ⟨rfl, rfl⟩

/-- Settles O35, by the laws of the duty in the active and in the other states. -/
theorem dutyIsThePercentOfMaxSpeed : Obligations.DutyIsThePercentOfMaxSpeed := by
  refine fun s => .of_eq (exec_p6Duty s) ⟨fun hm hmax => dutyOf_active ((Mst.active_iff _).2 hm) hmax, ?_, rfl⟩
  rintro (hm | hm | hmax)
  · exact dutyOf_zero (.inl (by rw [hm]; rfl))
  · exact dutyOf_zero (.inl (by rw [hm]; rfl))
  · exact dutyOf_zero (.inr hmax)

/-- Settles O36, by the next state of ACTUATE read off the two writes. -/
theorem actuateMakesOneCall : Obligations.ActuateMakesOneCall := by
  intro s
  refine .of_eq (exec_p6Actuate s) ?_
  rw [State.setAx_calls_ax]
  exact ⟨rfl, rfl, rfl⟩

/-- Settles O37, by the bits of the Status_Word. -/
theorem statusWordReportsTheAxis : Obligations.StatusWordReportsTheAxis := by
  intro s
  obtain ⟨hrun, hen, htgt, hflt, hhigh⟩ := statusWordOf_bits (s.ax s.loc.axis).s.mst s.loc.speed s.loc.cmdEff
  refine .of_eq (exec_p8Status s) ?_
  dsimp only
  rw [State.setAx_loc_ax, State.setAx_loc]
  exact ⟨hrun, hen, htgt, hflt, hhigh, rfl, rfl⟩

/-- Settles O38, by the next state of P9. -/
theorem writebackKeepsHostBytes : Obligations.WritebackKeepsHostBytes := by
  intro s
  rw [exec_p9Writeback]
  dsimp only
  rw [State.setAx_mv]

/-- Settles O32, by the four cases of P4. -/
theorem modeSelectFollowsEnableAndMode : Obligations.ModeSelectFollowsEnableAndMode := by
  intro s new hnew
  rw [← requestedMst_eq] at hnew
  subst hnew
  rcases (s.env s.loc.axis).modeSelect_cases with ⟨hsame, heq⟩ | ⟨hf, hn, hr, heq⟩ | ⟨hf, hn, hr, hl, heq⟩ |
    ⟨hf, hn, hr, hl, heq⟩ <;> refine .of_eq (exec_p4ModeSelect heq) ?_ <;> dsimp only <;>
    rw [State.setAx_loc_ax, State.setAx_loc]
  case inl => exact ⟨fun _ => ⟨rfl, rfl⟩, fun hf hn => absurd hsame (not_or.2 ⟨hf, hn⟩), rfl⟩
  case inr.inl =>
    exact ⟨fun h => absurd h (not_or.2 ⟨hf, hn⟩), fun _ _ => ⟨rfl, rfl, rfl, rfl, rfl, rfl, rfl, rfl, rfl,
      fun _ => ⟨rfl, rfl, rfl⟩, fun h => absurd h hr, fun h => absurd h hr⟩, rfl⟩
  case inr.inr.inl =>
    have hchange : requestedMst s.mv ≠ (s.ax s.loc.axis).s.mst := fun h => hn (h.symm.trans hr)
    obtain ⟨hv, ha, hj⟩ := (limitsOk_iff s.mv).1 hl
    exact ⟨fun h => absurd h (not_or.2 ⟨hf, hchange⟩), fun _ _ => ⟨rfl, rfl, rfl, rfl, rfl, rfl, rfl, rfl, rfl,
      fun h => absurd hr h, fun _ _ _ _ => ⟨rfl, rfl, rfl⟩,
      fun _ h => absurd h (not_or.2 ⟨hv, not_or.2 ⟨ha, hj⟩⟩)⟩, rfl⟩
  case inr.inr.inr =>
    have hchange : requestedMst s.mv ≠ (s.ax s.loc.axis).s.mst := fun h => hn (h.symm.trans hr)
    have hlim : ¬ (s.mv.vmax ≠ 0 ∧ s.mv.amax ≠ 0 ∧ s.mv.jmax ≠ 0) := fun h =>
      absurd ((limitsOk_iff s.mv).2 h) (Bool.eq_false_iff.1 hl)
    exact ⟨fun h => absurd h (not_or.2 ⟨hf, hchange⟩), fun _ _ => ⟨rfl, rfl, rfl, rfl, rfl, rfl, rfl, rfl, rfl,
      fun h => absurd hr h, fun _ hv ha hj => absurd ⟨hv, ha, hj⟩ hlim, fun _ _ => ⟨rfl, rfl, rfl⟩⟩, rfl⟩

/-! ### The profile of a ramp tick (R187) -/

/-- The change of the command, from the larger and the smaller of the two (R187). -/
theorem commandChange_eq (a b : Byte) : commandChange a b = max a.toNat b.toNat - min a.toNat b.toNat := by
  unfold commandChange
  omega

/-- The profile that HANDLE_RAMP hands to UPDATE (R187). -/
theorem Env.retargetIfMaterial_m (e : Env) :
    e.retargetIfMaterial.ax.m =
      if e.loc.entered = false ∧ e.cfg.retargetDelta ≤
          max e.loc.cmdEff.toNat e.ax.s.prevCmd.toNat - min e.loc.cmdEff.toNat e.ax.s.prevCmd.toNat
      then { e.ax.m with pos := .zero } else e.ax.m := by
  rw [Env.retargetIfMaterial, commandChange_eq]
  split <;> rfl

/-- The profile that HANDLE_RAMP ends with (R187). -/
def Env.rampProfile (e : Env) : Motion :=
  e.retargetIfMaterial.ax.m.update (requestedVelocity e.cfg e.loc.cmdEff)

/-- The profile that HANDLE_RAMP ends with, spelt out (R165, R187). -/
theorem Env.rampProfile_eq (e : Env) :
    e.rampProfile = (if e.loc.entered = false ∧ e.cfg.retargetDelta ≤
          max e.loc.cmdEff.toNat e.ax.s.prevCmd.toNat - min e.loc.cmdEff.toNat e.ax.s.prevCmd.toNat
      then { e.ax.m with pos := .zero } else e.ax.m).update (F32.mul (F32.ofNat e.loc.cmdEff.toNat) e.cfg.kv) := by
  rw [Env.rampProfile, Env.retargetIfMaterial_m, requestedVelocity]

/-- HANDLE_RAMP by its profile: `done` is its done test, the speed that of its velocity (R187). -/
theorem Env.handleRamp_profile (e : Env) :
    e.handleRamp = e.rampResult (requestedVelocity e.cfg e.loc.cmdEff) e.rampProfile
      (e.rampProfile.arrived e.cfg) (speedOfVelocity e.cfg e.mv.maxs e.rampProfile.v) :=
  e.handleRamp_eq

/-- P5 HANDLE_RAMP on the state, given its profile (R187). -/
theorem exec_p5HandleRamp (s : State) {m : Motion} (hm : (s.env s.loc.axis).rampProfile = m) :
    exec .p5HandleRamp s = .next { s.setAx s.loc.axis { s.ax s.loc.axis with
        m := m, s.done := m.arrived s.cfg } with
      loc := { s.loc with
        vreq := requestedVelocity s.cfg s.loc.cmdEff, updDone := m.arrived s.cfg
        speed := speedOfVelocity s.cfg s.mv.maxs m.v } } := by
  refine congrArg Host.Outcome.next (State.onLocals_of_ax_loc ?_)
  rw [Env.handleRamp_profile, hm]
  rfl

/-- Settles O34, by the profile that HANDLE_RAMP ends with. -/
theorem handleRampAdvancesTheProfile : Obligations.HandleRampAdvancesTheProfile := by
  intro s
  have hprofile := (s.env s.loc.axis).rampProfile_eq
  generalize hm : (s.env s.loc.axis).rampProfile = m at hprofile
  refine .of_eq (exec_p5HandleRamp s hm) ?_
  dsimp only
  rw [State.setAx_loc_ax, State.setAx_loc]
  exact ⟨hprofile, rfl, speedOfVelocity_toNat _ _ _, rfl⟩

/-! ### What an M_STEP reports and decides (R180) -/

/-- An image that is not enabled or selects no mode asks for DISABLED (R184). -/
theorem requestedMst_disabled {v : MotorView} (h : v.en ≠ 1 ∨ (v.cm ≠ 1 ∧ v.cm ≠ 2)) :
    requestedMst v = .disabled := by
  rw [requestedMst_eq, if_neg fun hc => h.elim (· hc.1) (·.1 hc.2), if_neg fun hc => h.elim (· hc.1) (·.2 hc.2)]

/-- An image enabled in ON_OFF asks for ON_OFF_ACTIVE (R184). -/
theorem requestedMst_onOff {v : MotorView} (he : v.en = 1) (hc : v.cm = 1) : requestedMst v = .onOffActive := by
  rw [requestedMst_eq, if_pos ⟨he, hc⟩]

/-- An image enabled in RAMP asks for RAMP_ACTIVE (R184). -/
theorem requestedMst_ramp {v : MotorView} (he : v.en = 1) (hc : v.cm = 2) : requestedMst v = .rampActive := by
  rw [requestedMst_eq, if_neg (by rw [hc]; exact fun h => absurd h.2 (by decide)), if_pos ⟨he, hc⟩]

/-- An overcurrent is found first (R213). -/
theorem detectedFault_overcurrent {oc bad : Bool} {cnt : BitVec 32} {n : Nat} (ho : oc = true) :
    detectedFault oc bad cnt n = some .overcurrent := if_pos ho

/-- An empty range is found next (R215). -/
theorem detectedFault_range {oc bad : Bool} {cnt : BitVec 32} {n : Nat} (ho : ¬ oc = true) (hb : bad = true) :
    detectedFault oc bad cnt n = some .range := (if_neg ho).trans (if_pos hb)

/-- A stall is found last (R212). -/
theorem detectedFault_stall {oc bad : Bool} {cnt : BitVec 32} {n : Nat} (ho : ¬ oc = true) (hb : ¬ bad = true)
    (hc : n ≤ cnt.toNat) : detectedFault oc bad cnt n = some .stall :=
  (if_neg ho).trans ((if_neg hb).trans (if_pos hc))

/-- The end of an M_STEP leaves what the fault monitor left. -/
theorem Env.finish_decides (e : Env) (duty : BitVec 7) (code : FaultCode) (mst : Mst) (err : Byte) (cnt : BitVec 32)
    (done : Bool) (m : Motion) : (e.finish duty code mst err cnt done m).ax.Decides mst err cnt done m :=
  ⟨rfl, rfl, rfl, rfl, rfl⟩

/-- The end of an M_STEP writes the Status_Word of the state that the fault monitor left (R192, R193). -/
theorem Env.finish_sw (e : Env) (duty : BitVec 7) (code : FaultCode) (mst : Mst) (err : Byte) (cnt : BitVec 32)
    (done : Bool) (m : Motion) :
    (e.finish duty code mst err cnt done m).mv.sw =
      statusWordOf (e.finish duty code mst err cnt done m).ax.s.mst e.loc.speed e.loc.cmdEff := rfl

/-- What every M_STEP reports: the Actual_Speed of its handler (R193), the Status_Word of the state it leaves
(R192), and the duty of the state that P4 left (R189). -/
theorem Env.mStep_reports (e : Env) :
    e.mStep.mv.as = e.front.handle.loc.speed ∧
      e.mStep.mv.sw = statusWordOf e.mStep.ax.s.mst e.mStep.mv.as (effectiveCommand e.mv) ∧
      e.mStep.ax.out.duty = dutyOf e.front.ax.s.mst e.mStep.mv.as e.mv.maxs := by
  have hmode := e.front.handle_mode
  have hmv : e.front.handle.mv = e.mv := (e.front_frame.trans e.front.handle_frame).mv
  obtain ⟨code, mst, err, cnt, done, m, ht⟩ := e.front.handle.tail_eq_finish
  rw [Env.mStep_eq, ht, Env.finish_sw, Env.finish_as, Env.finish_duty, hmode.mst, hmode.cmd, e.front_cmdEff, hmv]
  exact ⟨rfl, rfl, rfl⟩

/-- An M_STEP that P4 leaves in an inactive state keeps that state, clears `done`, and reports speed and duty 0
(R188, R189, R191). -/
theorem Env.mStep_inactive {e : Env} {mst : Mst} {err : Byte} {cnt : BitVec 32} {done : Bool} {m : Motion}
    (h : e.front.ax.Decides mst err cnt done m) (ha : mst.active = false) :
    e.mStep.ax.Decides mst err cnt false m ∧ e.mStep.mv.as = 0 ∧
      e.mStep.mv.sw = statusWordOf mst 0 (effectiveCommand e.mv) ∧ e.mStep.ax.out.duty = 0 := by
  obtain ⟨rfl, rfl, rfl, rfl, rfl⟩ := h
  obtain ⟨has, hsw, hduty⟩ := e.mStep_reports
  have hdec : e.mStep.ax.Decides e.front.ax.s.mst e.front.ax.s.err e.front.ax.s.stallCnt false e.front.ax.m := by
    rw [Env.mStep_eq, Env.handle_inactive ha, Env.tail_inactive (by exact ha)]
    exact Env.finish_decides ..
  rw [Env.handle_inactive ha] at has
  rw [has, hdec.1] at hsw
  exact ⟨hdec, has, hsw, hduty.trans (dutyOf_zero (.inl ha))⟩

/-- The stall counter that the fault check of an M_STEP compares (R212). -/
def Env.tickStall (e : Env) : BitVec 32 :=
  countStall e.front.ax.s.stallCnt e.mStep.mv.as (effectiveCommand e.mv)

/-- The stall counter of the fault check as a number (R212). -/
theorem Env.tickStall_toNat (e : Env) :
    e.tickStall.toNat = if e.mStep.mv.as.toNat = min (max e.mv.cmd.toNat e.mv.mins.toNat) e.mv.maxs.toNat then 0
      else min (e.front.ax.s.stallCnt.toNat + 1) (2 ^ 32 - 1) := by
  rw [Env.tickStall, countStall_toNat, ← effectiveCommand_toNat]
  simp only [BitVec.toNat_inj]

/-- What the fault check of an M_STEP of an active axis finds (R212). -/
def Env.tickFault (e : Env) : Option FaultCode :=
  detectedFault e.ax.oc (rangeIsBad e.mv) e.tickStall e.cfg.stallTicks

/-- The fault check works on what the handler left. -/
theorem Env.tickFault_eq (e : Env) :
    detectedFault e.front.handle.ax.oc e.front.handle.loc.rangeBad
      (countStall e.front.handle.ax.s.stallCnt e.front.handle.loc.speed e.front.handle.loc.cmdEff)
      e.front.handle.cfg.stallTicks = e.tickFault := by
  have hframe := e.front_frame.trans e.front.handle_frame
  have hmode := e.front.handle_mode
  rw [hframe.oc, hmode.range, e.front_rangeBad, hmode.cnt, ← e.mStep_reports.1, hmode.cmd, e.front_cmdEff,
    hframe.cfg]
  rfl

section
variable {e : Env} (ha : e.front.ax.s.mst.active = true)
include ha

/-- An M_STEP of an active axis that finds no fault leaves what its handler left, with the tick counted (R212). -/
theorem Env.mStep_active (hd : e.tickFault = none) :
    e.mStep.ax.Decides e.front.ax.s.mst e.front.ax.s.err e.tickStall e.front.handle.ax.s.done
      e.front.handle.ax.m := by
  have hmode := e.front.handle_mode
  have hcnt : countStall e.front.handle.ax.s.stallCnt e.front.handle.loc.speed e.front.handle.loc.cmdEff =
      e.tickStall := by
    rw [Env.tickStall, hmode.cnt, e.mStep_reports.1, hmode.cmd, e.front_cmdEff]
  rw [← hmode.mst] at ha
  rw [← hmode.mst, ← hmode.err, ← hcnt, Env.mStep_eq, Env.tail_active ha (e.tickFault_eq.trans hd)]
  exact Env.finish_decides ..

/-- An M_STEP of an active axis that finds a fault latches it (R212, R214). -/
theorem Env.mStep_fault {c : FaultCode} (hd : e.tickFault = some c) :
    e.mStep.ax.Decides .faulted c.byte 0 false (Motion.atRest (e.cfg.distance e.loc.axis)) := by
  have hframe := e.front_frame.trans e.front.handle_frame
  rw [← e.front.handle_mode.mst] at ha
  rw [← hframe.cfg, ← hframe.axis, Env.mStep_eq, Env.tail_fault ha (e.tickFault_eq.trans hd)]
  exact Env.finish_decides ..

/-- Everything an M_STEP of an active axis can leave, by the priority of the faults (R212, R213, R215). -/
theorem Env.mStep_by_priority :
    if e.ax.oc = true then
      e.mStep.ax.Decides .faulted 3 0 false (Motion.atRest (e.cfg.distance e.loc.axis))
    else if e.mv.maxs.toNat < e.mv.mins.toNat then
      e.mStep.ax.Decides .faulted 1 0 false (Motion.atRest (e.cfg.distance e.loc.axis))
    else if e.cfg.stallTicks ≤ e.tickStall.toNat then
      e.mStep.ax.Decides .faulted 2 0 false (Motion.atRest (e.cfg.distance e.loc.axis))
    else e.mStep.ax.Decides e.front.ax.s.mst e.front.ax.s.err e.tickStall e.front.handle.ax.s.done
      e.front.handle.ax.m := by
  split
  next ho => exact Env.mStep_fault ha (detectedFault_overcurrent ho)
  next ho =>
    split
    next hb => exact Env.mStep_fault ha (detectedFault_range ho ((rangeIsBad_iff _).2 hb))
    next hb =>
      have hgood : ¬ rangeIsBad e.mv = true := mt (rangeIsBad_iff _).1 hb
      split
      next hc => exact Env.mStep_fault ha (detectedFault_stall ho hgood hc)
      next hc =>
        exact Env.mStep_active ha
          (detectedFault_none (Bool.eq_false_iff.2 ho) (Bool.eq_false_iff.2 hgood) (Nat.lt_of_not_le hc))

end

/-! ### P1 to P4 for one request (R183, R184, R185) -/

section
variable {e : Env}

/-- An effective clear leaves DISABLED with no code (R183, R218). -/
theorem Env.front_cleared (hm : e.ax.s.mst = .faulted) (hr : e.rr = true) (he : e.mv.en ≠ 1) :
    e.front.ax.Decides .disabled 0 0 e.ax.s.done e.ax.m := by
  rcases e.front_cases with ⟨-, -, -, h⟩ | ⟨h, -⟩ | ⟨h, -⟩ | ⟨h, -⟩ | ⟨h, -⟩
  · exact h
  · exact absurd ⟨hm, hr, he⟩ h
  all_goals exact absurd hm h

/-- A FAULTED axis without an effective clear is not changed (R183, R217). -/
theorem Env.front_faulted (hm : e.ax.s.mst = .faulted) (hc : ¬ (e.rr = true ∧ e.mv.en ≠ 1)) :
    e.front.ax.Decides .faulted e.ax.s.err e.ax.s.stallCnt e.ax.s.done e.ax.m := by
  rcases e.front_cases with ⟨-, hr, he, -⟩ | ⟨-, -, -, h⟩ | ⟨h, -⟩ | ⟨h, -⟩ | ⟨h, -⟩
  · exact absurd ⟨hr, he⟩ hc
  · rwa [hm] at h
  all_goals exact absurd hm h

variable (hf : e.ax.s.mst ≠ .faulted)
include hf

/-- A request for DISABLED or ON_OFF_ACTIVE is followed; a change of state puts the profile at rest (R185). -/
theorem Env.front_plain (hr : requestedMst e.mv ≠ .rampActive) : ∃ cnt done,
    e.front.ax.Decides (requestedMst e.mv) e.ax.s.err cnt done
      (if e.ax.s.mst = requestedMst e.mv then e.ax.m else Motion.atRest (e.cfg.distance e.loc.axis)) := by
  rcases e.front_cases with ⟨h, -⟩ | ⟨-, hs, -, h⟩ | ⟨-, hn, -, h⟩ | ⟨-, -, h, -⟩ | ⟨-, -, h, -⟩
  · exact absurd h hf
  · have hsame : e.ax.s.mst = requestedMst e.mv := (hs.resolve_left hf).symm
    rw [if_pos hsame, ← hsame]
    exact ⟨_, _, h⟩
  · rw [if_neg (Ne.symm hn)]
    exact ⟨_, _, h⟩
  all_goals exact absurd h hr

/-- A request for RAMP_ACTIVE with a zero limit latches CONFIG (R185, R216). -/
theorem Env.front_config (hn : e.ax.s.mst ≠ .rampActive) (hr : requestedMst e.mv = .rampActive)
    (hl : e.mv.vmax = 0 ∨ e.mv.amax = 0 ∨ e.mv.jmax = 0) :
    e.front.ax.Decides .faulted 4 0 false (Motion.atRest (e.cfg.distance e.loc.axis)) := by
  have hbad : ¬ limitsOk e.mv = true := by rw [limitsOk_iff]; tauto
  rcases e.front_cases with ⟨h, -⟩ | ⟨-, h, -⟩ | ⟨-, -, h, -⟩ | ⟨-, -, -, h, -⟩ | ⟨-, -, -, -, h⟩
  · exact absurd h hf
  · exact absurd ((h.resolve_left hf).symm.trans hr) hn
  · exact absurd hr h
  · exact absurd h hbad
  · exact h

/-- A request for RAMP_ACTIVE is followed, from RAMP_ACTIVE or with legal limits (R185).  The handler then ends
with the profile started, retargeted or kept, and updated toward the clamped command (R187). -/
theorem Env.front_ramp (hr : requestedMst e.mv = .rampActive)
    (hl : e.ax.s.mst = .rampActive ∨ (e.mv.vmax ≠ 0 ∧ e.mv.amax ≠ 0 ∧ e.mv.jmax ≠ 0)) :
    e.front.ax.s.mst = .rampActive ∧ e.front.ax.s.err = e.ax.s.err ∧
      e.front.ax.s.stallCnt.toNat = (if e.ax.s.mst = .rampActive then e.ax.s.stallCnt.toNat else 0) ∧
      e.front.rampProfile =
        (if e.ax.s.mst ≠ .rampActive then Motion.rampStart e.cfg e.loc.axis e.mv
          else if e.cfg.retargetDelta ≤
              max (min (max e.mv.cmd.toNat e.mv.mins.toNat) e.mv.maxs.toNat) e.ax.s.prevCmd.toNat -
                min (min (max e.mv.cmd.toNat e.mv.mins.toNat) e.mv.maxs.toNat) e.ax.s.prevCmd.toNat then
            { e.ax.m with pos := .zero }
          else e.ax.m).update
          (F32.mul (F32.ofNat (min (max e.mv.cmd.toNat e.mv.mins.toNat) e.mv.maxs.toNat)) e.cfg.kv) := by
  rw [Env.rampProfile_eq, e.front_cmdEff, effectiveCommand_toNat, e.front_prevCmd, e.front_frame.cfg]
  rcases e.front_cases with ⟨h, -⟩ | ⟨-, hs, hent, hm, herr, hcnt, -, hprof⟩ | ⟨-, -, h, -⟩ |
    ⟨-, hn, -, -, hent, hm, herr, hcnt, -, hprof⟩ | ⟨-, hn, -, hbad, -⟩
  · exact absurd h hf
  · have hstay : e.ax.s.mst = .rampActive := (hs.resolve_left hf).symm.trans hr
    rw [hm, herr, hcnt, hprof, hent, hstay]
    simp only [true_and, if_true, ne_eq, not_true_eq_false, if_false]
  · exact absurd hr h
  · rw [hm, herr, hcnt, hprof, hent, if_neg hn, if_pos hn, if_neg fun h => absurd h.1 nofun]
    exact ⟨rfl, rfl, rfl, rfl⟩
  · exact absurd ((limitsOk_iff e.mv).2 (hl.resolve_left hn)) (Bool.eq_false_iff.1 hbad)

end

/-! ### The rows of the transition table (R194) -/

/-- The axis after an M_STEP, by the view that M_STEP starts from. -/
theorem State.mStep_ax_stepEnv (s : State) (k : Axis) : (s.mStep k).ax k = (s.stepEnv k).mStep.ax := s.mStep_ax k

/-- The image after an M_STEP, by the view that M_STEP starts from. -/
theorem State.mStep_mv_stepEnv (s : State) (k : Axis) : (s.mStep k).mv = (s.stepEnv k).mStep.mv := s.mStep_mv k

/-- The duty in an active state as a number, whatever Max_Speed is (R189). -/
theorem dutyOf_active_toNat {m : Mst} (h : m.active = true) (speed maxs : Byte) :
    (dutyOf m speed maxs).toNat = if maxs = 0 then 0 else min 100 (speed.toNat * 100 / maxs.toNat) := by
  split
  next hz => rw [dutyOf_zero (.inr hz)]; rfl
  next hz => exact dutyOf_active h hz

section
variable {e : Env}

/-- The row of a cleared fault. -/
theorem Env.mStep_cleared (hm : e.ax.s.mst = .faulted) (hr : e.rr = true) (he : e.mv.en ≠ 1) :
    e.mStep.ax.s.mst = .disabled ∧ e.mStep.ax.s.err = 0 := by
  obtain ⟨⟨hmst, herr, -⟩, -⟩ := Env.mStep_inactive (Env.front_cleared hm hr he) rfl
  exact ⟨hmst, herr⟩

/-- The row of a fault that is not cleared. -/
theorem Env.mStep_faulted (hm : e.ax.s.mst = .faulted) (hc : ¬ (e.rr = true ∧ e.mv.en ≠ 1)) :
    e.mStep.ax.s.mst = .faulted ∧ e.mStep.ax.s.err = e.ax.s.err := by
  obtain ⟨⟨hmst, herr, -⟩, -⟩ := Env.mStep_inactive (Env.front_faulted hm hc) rfl
  exact ⟨hmst, herr⟩

variable (hf : e.ax.s.mst ≠ .faulted)
include hf

/-- The row of a request for DISABLED, with what its tick reports (R184, R188, R189). -/
theorem Env.mStep_disables (hd : e.mv.en ≠ 1 ∨ (e.mv.cm ≠ 1 ∧ e.mv.cm ≠ 2)) : ∃ cnt,
    e.mStep.ax.Decides .disabled e.ax.s.err cnt false
      (if e.ax.s.mst = .disabled then e.ax.m else Motion.atRest (e.cfg.distance e.loc.axis)) ∧
    e.mStep.mv.as = 0 ∧ e.mStep.mv.sw = 0 ∧ e.mStep.ax.out.duty = 0 := by
  have hr := requestedMst_disabled hd
  obtain ⟨cnt, done, hdec⟩ := Env.front_plain hf (by rw [hr]; exact nofun)
  rw [hr] at hdec
  obtain ⟨hleft, has, hsw, hduty⟩ := Env.mStep_inactive hdec rfl
  exact ⟨cnt, hleft, has, hsw.trans (statusWordOf_inactive _).1, hduty⟩

/-- The row of an entry of RAMP_ACTIVE with a zero limit, with what its tick reports (R185, R216). -/
theorem Env.mStep_config (hn : e.ax.s.mst ≠ .rampActive) (he : e.mv.en = 1) (hc : e.mv.cm = 2)
    (hl : e.mv.vmax = 0 ∨ e.mv.amax = 0 ∨ e.mv.jmax = 0) :
    e.mStep.ax.Decides .faulted 4 0 false (Motion.atRest (e.cfg.distance e.loc.axis)) ∧
      e.mStep.mv.as = 0 ∧ e.mStep.mv.sw = 0x08 ∧ e.mStep.ax.out.duty = 0 := by
  obtain ⟨hleft, has, hsw, hduty⟩ :=
    Env.mStep_inactive (Env.front_config hf hn (requestedMst_ramp he hc) hl) rfl
  exact ⟨hleft, has, hsw.trans (statusWordOf_inactive _).2, hduty⟩

/-- The row of a request for ON_OFF_ACTIVE, with the speed and the duty of its tick: on target there is no stall,
so only an overcurrent or an empty range latches (R186, R189, R212). -/
theorem Env.mStep_onOff (hwf : e.cfg.WF = true) (he : e.mv.en = 1) (hc : e.mv.cm = 1) :
    (e.ax.oc = true ∨ e.mv.maxs.toNat < e.mv.mins.toNat →
      e.mStep.ax.Decides .faulted (if e.ax.oc = true then 3 else 1) 0 false
        (Motion.atRest (e.cfg.distance e.loc.axis))) ∧
    (¬ (e.ax.oc = true ∨ e.mv.maxs.toNat < e.mv.mins.toNat) →
      e.mStep.ax.Decides .onOffActive e.ax.s.err 0 false
        (if e.ax.s.mst = .onOffActive then e.ax.m else Motion.atRest (e.cfg.distance e.loc.axis))) ∧
    e.mStep.mv.as = effectiveCommand e.mv ∧
    e.mStep.ax.out.duty = dutyOf .onOffActive (effectiveCommand e.mv) e.mv.maxs := by
  have hr := requestedMst_onOff he hc
  obtain ⟨cnt, done, hmst, herr, -, -, hm⟩ := Env.front_plain hf (by rw [hr]; exact nofun)
  rw [hr] at hmst hm
  obtain ⟨has, -, hduty⟩ := e.mStep_reports
  have hhandle := Env.handle_onOff hmst
  have hspeed : e.mStep.mv.as = effectiveCommand e.mv := by
    rw [has, hhandle]; exact e.front_cmdEff
  have hcnt : e.tickStall = 0 := by rw [Env.tickStall, hspeed, countStall, if_pos rfl]
  have hstall : ¬ e.cfg.stallTicks ≤ e.tickStall.toNat := by
    rw [hcnt]; exact Nat.not_le_of_lt (Cfg.stallTicks_of_wf hwf).1
  have hpri := Env.mStep_by_priority (e := e) (by rw [hmst]; rfl)
  rw [if_neg hstall, hcnt, hmst, herr, hhandle] at hpri
  rw [hspeed, hmst] at hduty
  rw [← hm]
  refine ⟨fun h => ?_, fun h => ?_, hspeed, hduty⟩
  · by_cases ho : e.ax.oc = true
    · rwa [if_pos ho] at hpri ⊢
    · rw [if_neg ho, if_pos (h.resolve_left ho)] at hpri
      rwa [if_neg ho]
  · rw [not_or] at h
    rwa [if_neg h.1, if_neg h.2] at hpri

end

/-- What HANDLE_RAMP ends with, in RAMP_ACTIVE (R187). -/
theorem Env.handle_rampProfile {e : Env} {m : Motion} (h : e.ax.s.mst = .rampActive) (hm : e.rampProfile = m) :
    e.handle.ax.m = m ∧ e.handle.ax.s.done = m.arrived e.cfg ∧
      e.handle.loc.speed = speedOfVelocity e.cfg e.mv.maxs m.v := by
  rw [Env.handle_ramp h, Env.handleRamp_profile, hm]
  exact ⟨rfl, rfl, rfl⟩

section
variable {e : Env} (hmst : e.front.ax.s.mst = .rampActive)
include hmst

/-- The states and codes that an M_STEP of an axis in RAMP_ACTIVE can leave (R194, R213, R215). -/
theorem Env.mStep_ramp_mode :
    if e.ax.oc = true then e.mStep.ax.s.mst = .faulted ∧ e.mStep.ax.s.err = 3
    else if e.mv.maxs.toNat < e.mv.mins.toNat then e.mStep.ax.s.mst = .faulted ∧ e.mStep.ax.s.err = 1
    else if e.cfg.stallTicks ≤ e.tickStall.toNat then e.mStep.ax.s.mst = .faulted ∧ e.mStep.ax.s.err = 2
    else e.mStep.ax.s.mst = .rampActive ∧ e.mStep.ax.s.err = e.front.ax.s.err := by
  have hpri := Env.mStep_by_priority (e := e) (by rw [hmst]; rfl)
  rw [hmst] at hpri
  split_ifs at hpri ⊢ <;> exact ⟨hpri.1, hpri.2.1⟩

/-- An M_STEP of an axis in RAMP_ACTIVE reports the speed and the duty of its profile, also when a fault latches
then (R166, R189, R190). -/
theorem Env.mStep_ramp_report {m : Motion} (hm : e.front.rampProfile = m) :
    e.mStep.mv.as.toNat = min (min (F32.floorHalves (F32.div (F32.abs m.v) e.cfg.kv) 1) 255) e.mv.maxs.toNat ∧
      e.mStep.ax.out.duty.toNat =
        if e.mv.maxs = 0 then 0 else min 100 (e.mStep.mv.as.toNat * 100 / e.mv.maxs.toNat) := by
  obtain ⟨has, -, hduty⟩ := e.mStep_reports
  obtain ⟨-, -, hspeed⟩ := Env.handle_rampProfile hmst hm
  rw [hduty, hmst]
  refine ⟨?_, dutyOf_active_toNat rfl _ _⟩
  rw [has, hspeed, speedOfVelocity_toNat, e.front_frame.cfg, e.front_frame.mv]

/-- An M_STEP that an axis ends in RAMP_ACTIVE keeps its profile and shows whether it moves (R187, R192). -/
theorem Env.mStep_ramp_runs {m : Motion} (hm : e.front.rampProfile = m) (hrun : e.mStep.ax.s.mst = .rampActive) :
    e.mStep.ax.m = m ∧ e.mStep.ax.s.done = m.arrived e.cfg ∧ e.mStep.ax.s.stallCnt = e.tickStall ∧
      e.mStep.mv.sw.getLsbD 0 = decide (e.mStep.mv.as ≠ 0) := by
  have ha : e.front.ax.s.mst.active = true := by rw [hmst]; rfl
  obtain ⟨hprof, hdone, -⟩ := Env.handle_rampProfile hmst hm
  obtain ⟨-, hsw, -⟩ := e.mStep_reports
  obtain ⟨hbit, -⟩ := statusWordOf_bits e.mStep.ax.s.mst e.mStep.mv.as (effectiveCommand e.mv)
  cases hd : e.tickFault with
  | some c =>
    obtain ⟨hfault, -⟩ := Env.mStep_fault ha hd
    exact absurd (hrun.symm.trans hfault) nofun
  | none =>
    obtain ⟨-, -, hcnt, hdone', hm'⟩ := Env.mStep_active ha hd
    rw [hsw, hm', hdone', hcnt, hprof, hdone, e.front_frame.cfg]
    exact ⟨rfl, rfl, rfl, Bool.eq_iff_iff.2 (hbit.trans decide_eq_true_iff.symm)⟩

/-- An M_STEP in which an axis leaves RAMP_ACTIVE by a fault puts the profile at rest and still shows the speed of
its tick (R192, R214). -/
theorem Env.mStep_ramp_faults (hfault : e.mStep.ax.s.mst = .faulted) :
    e.mStep.ax.m = Motion.atRest (e.cfg.distance e.loc.axis) ∧ e.mStep.ax.s.done = false ∧
      e.mStep.ax.s.stallCnt = 0 ∧ e.mStep.mv.sw = if e.mStep.mv.as = 0 then 0x08 else 0x09 := by
  have ha : e.front.ax.s.mst.active = true := by rw [hmst]; rfl
  obtain ⟨-, hsw, -⟩ := e.mStep_reports
  rw [hfault, statusWordOf_faulted] at hsw
  cases hd : e.tickFault with
  | none =>
    obtain ⟨hrun, -⟩ := Env.mStep_active ha hd
    exact absurd ((hrun.trans hmst).symm.trans hfault) nofun
  | some c =>
    obtain ⟨-, -, hcnt, hdone, hm⟩ := Env.mStep_fault ha hd
    exact ⟨hm, hdone, hcnt, hsw⟩

end

/-- Settles O49: P1 to P4 decide the row, and the fault check of an active axis its to column. -/
theorem mStepFollowsTheTransitionTable : Obligations.MStepFollowsTheTransitionTable := by
  intro s k hwf
  refine .of_eq (exec_mStep k s) ?_
  dsimp only
  rw [State.mStep_ax_stepEnv, State.mStep_mv_stepEnv]
  refine ⟨fun hm hr he => Env.mStep_cleared (e := s.stepEnv k) hm hr he,
    fun hm hc => Env.mStep_faulted (e := s.stepEnv k) hm hc, fun hf hd => ?disabled, fun hf he hc => ?onOff,
    fun hf hn he hc hl => ?config, fun hf he hc hl => ?ramp⟩
  case disabled =>
    obtain ⟨cnt, ⟨hmst, herr, -⟩, -⟩ := Env.mStep_disables (e := s.stepEnv k) hf hd
    exact ⟨hmst, herr⟩
  case onOff =>
    obtain ⟨hfault, hrun, -⟩ := Env.mStep_onOff (e := s.stepEnv k) hf hwf he hc
    split_ifs with ho hb
    · obtain ⟨hmst, herr, -⟩ := hfault (.inl ho)
      exact ⟨hmst, herr.trans (if_pos ho)⟩
    · obtain ⟨hmst, herr, -⟩ := hfault (.inr hb)
      exact ⟨hmst, herr.trans (if_neg ho)⟩
    · obtain ⟨hmst, herr, -⟩ := hrun (not_or.2 ⟨ho, hb⟩)
      exact ⟨hmst, herr⟩
  case config =>
    obtain ⟨⟨hmst, herr, -, -, hm⟩, has, hsw, hduty⟩ := Env.mStep_config (e := s.stepEnv k) hf hn he hc hl
    exact ⟨hmst, herr, has, hsw, hduty, hm⟩
  case ramp =>
    obtain ⟨hmst, herr, hcnt, hprof⟩ := Env.front_ramp (e := s.stepEnv k) hf (requestedMst_ramp he hc) hl
    have hmode := Env.mStep_ramp_mode hmst
    have hstall := (s.stepEnv k).tickStall_toNat
    rw [hcnt] at hstall
    rw [hstall, herr] at hmode
    obtain ⟨has, hduty⟩ := Env.mStep_ramp_report hmst hprof
    refine ⟨hmode, has, hduty, fun hrun => ?_, Env.mStep_ramp_faults hmst⟩
    obtain ⟨hm, hdone, hcount, hbit⟩ := Env.mStep_ramp_runs hmst hprof hrun
    exact ⟨hm, hdone, (congrArg BitVec.toNat hcount).trans hstall, hbit⟩

/-- The percentage of a speed that does not pass Max_Speed needs no cap (R189). -/
theorem min_percent_of_le {n d : Nat} (h : n ≤ d) : min 100 (n * 100 / d) = n * 100 / d :=
  Nat.min_eq_right (Nat.div_le_of_le_mul (Nat.mul_le_mul_right 100 h))

/-- Settles O52: the row of ON_OFF, whose speed is the clamped command. -/
theorem mStepOnOffTracksTheCommand : Obligations.MStepOnOffTracksTheCommand := by
  intro s k hwf hf he hc
  obtain ⟨hfault, hrun, has, hduty⟩ := Env.mStep_onOff (e := s.stepEnv k) hf hwf he hc
  obtain ⟨-, hsw, -⟩ := (s.stepEnv k).mStep_reports
  rw [has] at hsw
  have hzero : effectiveCommand s.mv = 0 ↔ (effectiveCommand s.mv).toNat = 0 := BitVec.toNat_inj.symm
  have hends : (s.stepEnv k).mStep.ax.s.done = false ∧ (s.stepEnv k).mStep.ax.s.stallCnt = 0 := by
    by_cases hbad : (s.ax k).oc = true ∨ s.mv.maxs.toNat < s.mv.mins.toNat
    · obtain ⟨-, -, hcnt, hdone, -⟩ := hfault hbad
      exact ⟨hdone, hcnt⟩
    · obtain ⟨-, -, hcnt, hdone, -⟩ := hrun hbad
      exact ⟨hdone, hcnt⟩
  refine .of_eq (exec_mStep k s) ?_
  dsimp only
  rw [State.mStep_ax_stepEnv, State.mStep_mv_stepEnv, ← effectiveCommand_toNat]
  refine ⟨congrArg BitVec.toNat has, hends.1, hends.2, ?duty, fun ho hle => ?running, fun hbad => ?faulted⟩
  case duty =>
    rw [hduty, dutyOf_active_toNat rfl, min_percent_of_le (effectiveCommand_le _)]
    rfl
  case running =>
    obtain ⟨hmst, herr, -, -, hm⟩ := hrun (not_or.2 ⟨Bool.eq_false_iff.1 ho, Nat.not_lt_of_le hle⟩)
    rw [hmst, statusWordOf_onTarget .onOffActive rfl] at hsw
    exact ⟨hmst, herr, hsw.trans (if_congr hzero rfl rfl), hm⟩
  case faulted =>
    obtain ⟨hmst, herr, -, -, hm⟩ := hfault hbad
    rw [hmst, statusWordOf_faulted] at hsw
    exact ⟨hmst, herr, hsw.trans (if_congr hzero rfl rfl), hm⟩

/-- Settles O54: the row of a request for DISABLED. -/
theorem mStepDisableStopsAtOnce : Obligations.MStepDisableStopsAtOnce := by
  intro s k hf hd
  obtain ⟨cnt, ⟨hmst, -, -, hdone, hm⟩, has, hsw, hduty⟩ := Env.mStep_disables (e := s.stepEnv k) hf hd
  refine .of_eq (exec_mStep k s) ?_
  rw [State.mStep_ax_stepEnv, State.mStep_mv_stepEnv]
  exact ⟨has, hsw, hmst, hduty, hdone, fun hn => hm.trans (if_neg hn)⟩

end Sys2Proof.Machine

/-! # Proofs of the family 60_exceptions: the fault monitor, the FAULTED axis, the idle block -/

namespace Sys2Proof.Machine

/-! ### FAULT_LATCH and CLEAR_ERROR on the state (R214, R218) -/

/-- FAULT_LATCH on the state (R214). -/
theorem exec_faultLatch (s : State) :
    exec .faultLatch s = .next (s.setAx s.loc.axis { s.ax s.loc.axis with
      s.err := s.loc.code.byte, s.mst := .faulted, s.stallCnt := 0, s.done := false
      m := Motion.atRest (s.cfg.distance s.loc.axis) }) :=
  congrArg Host.Outcome.next (State.onLocals_of_ax (Env.latchFault_eq _ _))

/-- CLEAR_ERROR on the state (R218). -/
theorem exec_clearError (s : State) :
    exec .clearError s = .next (s.setAx s.loc.axis { s.ax s.loc.axis with
      s.err := 0, s.mst := .disabled, s.stallCnt := 0 }) :=
  congrArg Host.Outcome.next (State.onLocals_of_ax rfl)

/-- Settles O47, by the next state of FAULT_LATCH. -/
theorem faultLatchEntersFaulted : Obligations.FaultLatchEntersFaulted := exec_faultLatch

/-- Settles O48, by the next state of CLEAR_ERROR. -/
theorem clearErrorReturnsToDisabled : Obligations.ClearErrorReturnsToDisabled := exec_clearError

/-! ### CHECK_ERROR (R212) -/

/-- CHECK_ERROR writes the axis and, of the locals, the code (R212). -/
theorem Env.checkError_writes (e : Env) :
    e.checkError = { e with ax := e.checkError.ax, loc.code := e.checkError.loc.code } := by
  cases h : detectedFault e.ax.oc e.loc.rangeBad
    (countStall e.ax.s.stallCnt e.loc.speed e.loc.cmdEff) e.cfg.stallTicks with
  | none => rw [Env.checkError_counts h]
  | some c => rw [Env.checkError_latches h]

/-- CHECK_ERROR on the state, given what it leaves of the axis and the code (R212). -/
theorem exec_checkError {s : State} {e : Env} (h : (s.env s.loc.axis).checkError = e) :
    exec .checkError s = .next { s.setAx s.loc.axis e.ax with loc := { s.loc with code := e.loc.code } } := by
  subst h
  exact congrArg Host.Outcome.next (State.onLocals_of_ax_loc (Env.checkError_writes _))

/-- The axis after CHECK_ERROR with a cause (R212, R214). -/
theorem Env.checkError_ax_latches {e : Env} {c : FaultCode}
    (h : detectedFault e.ax.oc e.loc.rangeBad (countStall e.ax.s.stallCnt e.loc.speed e.loc.cmdEff)
      e.cfg.stallTicks = some c) :
    e.checkError.ax = { e.ax with
      s.err := c.byte, s.mst := .faulted, s.stallCnt := 0, s.done := false
      m := Motion.atRest (e.cfg.distance e.loc.axis) } :=
  congrArg Env.ax (Env.checkError_latches h)

/-- The axis after CHECK_ERROR with no cause (R212). -/
theorem Env.checkError_ax_counts {e : Env}
    (h : detectedFault e.ax.oc e.loc.rangeBad (countStall e.ax.s.stallCnt e.loc.speed e.loc.cmdEff)
      e.cfg.stallTicks = none) :
    e.checkError.ax = { e.ax with s.stallCnt := countStall e.ax.s.stallCnt e.loc.speed e.loc.cmdEff } :=
  congrArg Env.ax (Env.checkError_counts h)

/-- Settles O46, cause by cause in the order of `detectedFault`. -/
theorem checkErrorLatchesTheFirstCause : Obligations.CheckErrorLatchesTheFirstCause := by
  intro s cnt hcnt
  obtain rfl : cnt = (countStall (s.ax s.loc.axis).s.stallCnt s.loc.speed s.loc.cmdEff).toNat :=
    hcnt.trans (countStall_toNat ..).symm
  refine .of_eq (exec_checkError rfl) ?_
  dsimp only
  rw [State.setAx_loc_ax, State.setAx_loc]
  refine ⟨fun ho => ?overcurrent, fun ho hb => ?range, fun ho hb hc => ?stall, fun ho hb hc => ?none, rfl⟩
  case overcurrent => exact Env.checkError_ax_latches (detectedFault_overcurrent ho)
  case range => exact Env.checkError_ax_latches (detectedFault_range (Bool.eq_false_iff.1 ho) hb)
  case stall =>
    exact Env.checkError_ax_latches (detectedFault_stall (Bool.eq_false_iff.1 ho) (Bool.eq_false_iff.1 hb) hc)
  case none =>
    rw [BitVec.ofNat_toNat, BitVec.setWidth_eq]
    exact Env.checkError_ax_counts (detectedFault_none ho hb hc)

/-! ### An M_STEP of a FAULTED axis (R217, R220) -/

/-- The Error_Code that an M_STEP writes back is the latched one (R193). -/
theorem Env.mStep_ec (e : Env) : e.mStep.mv.ec = e.mStep.ax.s.err :=
  congrArg MotorView.ec e.mStep_stepped.mv

/-- Settles O53: P1 to P4 keep the fault, and an inactive axis reports speed and duty 0. -/
theorem mStepFaultedStaysSafe : Obligations.MStepFaultedStaysSafe := by
  intro s k hm hc
  obtain ⟨⟨hmst, herr, hcnt, hdone, hprof⟩, has, hsw, hduty⟩ :=
    Env.mStep_inactive (Env.front_faulted (e := s.stepEnv k) hm hc) rfl
  refine .of_eq (exec_mStep k s) ?_
  rw [State.mStep_ax_stepEnv, State.mStep_mv_stepEnv]
  exact ⟨has, hsw.trans (statusWordOf_inactive _).2, (Env.mStep_ec _).trans herr, herr, hmst, hdone, hduty,
    hprof, hcnt⟩

/-! ### The idle block (R227, R245) -/

/-- With no TICK held nothing starts (R137, R227). -/
theorem State.startHeld_of_zero {s : State} (h : s.heldTicks = 0) : s.startHeld = s := by
  simp only [State.startHeld, h]

/-- Settles O10: the core sequencer is IDLE and starts nothing, so the step only lowers the strobes. -/
theorem idleBlockRetainsItsState : Obligations.IdleBlockRetainsItsState := by
  intro s hwf hs hseq hheld
  have hidle : s.quiet.seq = none := s.quiet_seq.trans hseq
  have hnone : s.quiet.heldTicks = 0 := s.quiet_heldTicks.trans hheld
  rw [step_of_sched_nil hwf hs, coreStep_of_idle hidle, State.startHeld_of_zero hnone]
  rfl

end Sys2Proof.Machine

/-! # Proofs of the family 70_reset_and_hazards: the state that RESET establishes (R240 to R244) -/

namespace Sys2Proof.Machine

/-- The arm of RESET (R240). -/
theorem exec_reset (s : State) : exec .reset s = .next s.doReset := rfl

/-- A free address lies in none of the three spans (R98). -/
theorem outside_spans_of_free {c : Cfg} {x : Byte} (h : decodeAddr c x = .free) :
    ¬ (c.baseM1.toNat ≤ x.toNat ∧ x.toNat ≤ c.baseM1.toNat + 13) ∧
      ¬ (c.baseM2.toNat ≤ x.toNat ∧ x.toNat ≤ c.baseM2.toNat + 13) ∧
      ¬ (c.baseSys.toNat ≤ x.toNat ∧ x.toNat ≤ c.baseSys.toNat + 6) := by
  unfold decodeAddr at h
  dsimp only at h
  split at h
  case isTrue => cases h
  case isFalse hm1 =>
    split at h
    case isTrue => cases h
    case isFalse hm2 =>
      split at h
      case isTrue => cases h
      case isFalse hsys => exact ⟨hm1, hm2, hsys⟩

/-- The free cells of the bank that RESET leaves are ⊥ (R240; log entry 12). -/
theorem Bank.read_initial_free {c : Cfg} {x : Byte} (h : decodeAddr c x = .free) :
    Bank.read (Bank.initial c) x.toNat = none := by
  obtain ⟨hm1, hm2, hsys⟩ := outside_spans_of_free h
  rw [Bank.read_initial, if_neg (by omega), if_neg (by omega), if_neg (by omega)]

/-- RESET leaves the cells of model launch with the same configuration (R240, R247). -/
theorem State.doReset_cell (s : State) (x : Byte) : s.doReset.cell x = (State.launch s.cfg).cell x := by
  rw [State.cell, State.cell, State.doReset_bank, State.launch_bank]

/-- RESET gives both axes their reset values and keeps the overcurrent levels (R244, R45). -/
theorem State.doReset_ax (s : State) (k : Axis) :
    s.doReset.ax k = AxisState.initial s.cfg k (s.ax k).oc := by
  cases k
  · exact s.doReset_ax1
  · exact s.doReset_ax2

/-- After RESET no tick is in progress (R46, R241). -/
theorem State.doReset_busy (s : State) : s.doReset.busy = false := by
  rw [State.busy, State.doReset_seq, Option.isSome_none]

/-- RESET leaves everything but the bank, the axes, `seq` and the held TICKs (log entry 6). -/
theorem State.doReset_frame (s : State) : s.doReset = { s with
    bank := s.doReset.bank, ax1 := s.doReset.ax1, ax2 := s.doReset.ax2, seq := none, heldTicks := 0 } := by
  rw [State.doReset_bank, State.doReset_ax1, State.doReset_ax2, State.doReset]

/-- Settles O19: the spans are those of model launch, the axes the initial ones, the rest the frame. -/
theorem resetEstablishesTheResetState : Obligations.ResetEstablishesTheResetState := by
  intro s hwf
  refine .of_eq (exec_reset s) ⟨fun k => ?motor, ?system, fun x hx => ?free, fun k => ?axis, s.doReset_seq,
    s.doReset_busy, s.doReset_frame⟩
  case motor =>
    simp only [State.doReset_cell]
    exact State.launch_motorCells hwf k
  case system =>
    simp only [State.doReset_cell]
    exact State.launch_sysCells hwf
  case free =>
    rw [State.cell, State.doReset_bank]
    exact Bank.read_initial_free hx
  case axis =>
    rw [State.doReset_ax]
    exact ⟨rfl, rfl, rfl, rfl, rfl, rfl⟩

end Sys2Proof.Machine
